-- ==== Sys2Proof/Word.lean ====
section
/-! DEFINITION. The words of the block (spec/00_scope.md R8, R9): bytes, 64-bit words and addresses. -/

namespace Sys2Proof

/-- One byte of DMA memory (R71: "byte size 8 bits"). -/
abbrev Byte := BitVec 8

/-- A general register, a pointer, a length or a handle member: 64 bits (R8). -/
abbrev Word := BitVec 64

/-- A physical (DMA) address or a driver pointer: 64 bits (R8, R71). -/
abbrev Addr := BitVec 64

end Sys2Proof
end

