-- ==== Sys2Proof/Syntax.lean ====
section
/-! DEFINITION. The operation set (R112): one constructor per row of spec/opcode_table.json. An operation that takes a queue
carries its queue number, the field `QID` of the command word (R110); its other operands are the registers `A0`, `A1`, `A2`. -/

namespace Sys2Proof

/-- The 50 operations of the block (R2, R112). -/
inductive Instr where
  -- Receive descriptor codec
  /-- `RXD.INIT` (R141): registers read: A0 slot. -/
  | rxdInit (q : Nat)
  /-- `RXD.SETADDR` (R142): registers read: A0 slot, A1 addr. -/
  | rxdSetaddr (q : Nat)
  /-- `RXD.RSTSTAT` (R143): registers read: A0 slot. -/
  | rxdRststat (q : Nat)
  /-- `RXD.DD` (R144): registers read: A0 slot. -/
  | rxdDd (q : Nat)
  /-- `RXD.EOP` (R145): registers read: A0 slot. -/
  | rxdEop (q : Nat)
  /-- `RXD.LEN` (R146): registers read: A0 slot. -/
  | rxdLen (q : Nat)
  /-- `RXD.RSSTYPE` (R147): registers read: A0 slot. -/
  | rxdRsstype (q : Nat)
  /-- `RXD.PKTTYPE` (R148): registers read: A0 slot. -/
  | rxdPkttype (q : Nat)
  /-- `RXD.HDRLEN` (R149): registers read: A0 slot. -/
  | rxdHdrlen (q : Nat)
  /-- `RXD.RSSHASH` (R150): registers read: A0 slot. -/
  | rxdRsshash (q : Nat)
  /-- `RXD.XSTATUS` (R151): registers read: A0 slot. -/
  | rxdXstatus (q : Nat)
  /-- `RXD.XERROR` (R152): registers read: A0 slot. -/
  | rxdXerror (q : Nat)
  /-- `RXD.VLAN` (R153): registers read: A0 slot. -/
  | rxdVlan (q : Nat)
  -- Transmit descriptor codec
  /-- `TXD.INIT` (R161): registers read: A0 slot. -/
  | txdInit (q : Nat)
  /-- `TXD.SEND` (R162): registers read: A0 slot, A1 addr, A2 len. -/
  | txdSend (q : Nat)
  /-- `TXD.POLLDD` (R163): registers read: A0 slot. -/
  | txdPolldd (q : Nat)
  /-- `TXD.WAITDD` (R164): registers read: A0 slot. -/
  | txdWaitdd (q : Nat)
  /-- `TXD.GETADDR` (R165): registers read: A0 slot. -/
  | txdGetaddr (q : Nat)
  /-- `TXD.GETLEN` (R166): registers read: A0 slot. -/
  | txdGetlen (q : Nat)
  /-- `TXD.GETPAYLEN` (R167): registers read: A0 slot. -/
  | txdGetpaylen (q : Nat)
  -- Buffer pool
  /-- `POOL.ALLOCATE` (R181): registers read: A0 count, A1 size. -/
  | poolAllocate
  /-- `POOL.ALLOC` (R182): registers read: A0 size. -/
  | poolAlloc
  /-- `POOL.FREE` (R184): registers read: A0..A2 h. -/
  | poolFree
  /-- `POOL.STAT` (R186): registers read: none. -/
  | poolStat
  -- Classic ring driver
  /-- `CR.INIT` (R201): registers read: none. -/
  | crInit
  /-- `CR.CANRX` (R204): registers read: none. -/
  | crCanrx (q : Nat)
  /-- `CR.RX` (R205): registers read: none. -/
  | crRx (q : Nat)
  /-- `CR.RXRECYCLE` (R206): registers read: A0..A2 h. -/
  | crRxrecycle
  /-- `CR.CANTX` (R207): registers read: none. -/
  | crCantx (q : Nat)
  /-- `CR.TX` (R208): registers read: A0..A2 h. -/
  | crTx (q : Nat)
  /-- `CR.TXRECYCLE` (R209): registers read: none. -/
  | crTxrecycle (q : Nat)
  /-- `CR.TXALLOC` (R210): registers read: A0 size. -/
  | crTxalloc
  -- Token ring driver
  /-- `TR.INIT` (R231): registers read: none. -/
  | trInit
  /-- `TR.CANRX` (R232): registers read: none. -/
  | trCanrx
  /-- `TR.RX` (R233): registers read: none. -/
  | trRx
  /-- `TR.RXRECYCLE` (R234): registers read: A0..A2 h. -/
  | trRxrecycle
  /-- `TR.CANTX` (R235): registers read: none. -/
  | trCantx
  /-- `TR.TX` (R236): registers read: A0..A2 h. -/
  | trTx
  /-- `TR.TXRECYCLE` (R237): registers read: none. -/
  | trTxrecycle
  /-- `TR.TXALLOC` (R238): registers read: A0 size. -/
  | trTxalloc
  -- Uniform driver contract
  /-- `DEV.INIT` (R261): registers read: none. -/
  | devInit
  /-- `DEV.CANRX` (R262): registers read: none. -/
  | devCanrx (q : Nat)
  /-- `DEV.RX` (R263): registers read: none. -/
  | devRx (q : Nat)
  /-- `DEV.RXRECYCLE` (R264): registers read: A0..A2 h. -/
  | devRxrecycle
  /-- `DEV.CANTX` (R265): registers read: none. -/
  | devCantx (q : Nat)
  /-- `DEV.TX` (R266): registers read: A0..A2 h. -/
  | devTx (q : Nat)
  /-- `DEV.TXRECYCLE` (R267): registers read: none. -/
  | devTxrecycle (q : Nat)
  /-- `DEV.TXALLOC` (R268): registers read: A0 size. -/
  | devTxalloc
  /-- `DEV.INFO` (R269): registers read: A0 selector. -/
  | devInfo
  -- System
  /-- `SYS.RESET` (R342): registers read: none. -/
  | sysReset
deriving DecidableEq, Repr

end Sys2Proof
end

