-- ==== Sys2Proof/WellFormed.lean ====
section
/-! DEFINITION. Well-formed operations: a queue number fits the 8-bit field `QID` (R110). Whether it names a queue of the instance
(`q < QN`) is checked by the operation itself (R111, R114). -/

namespace Sys2Proof

/-- The queue number an operation carries, if it takes one (the column "queue" of R112). -/
def Instr.queue? : Instr → Option Nat
  | .rxdInit q => some q
  | .rxdSetaddr q => some q
  | .rxdRststat q => some q
  | .rxdDd q => some q
  | .rxdEop q => some q
  | .rxdLen q => some q
  | .rxdRsstype q => some q
  | .rxdPkttype q => some q
  | .rxdHdrlen q => some q
  | .rxdRsshash q => some q
  | .rxdXstatus q => some q
  | .rxdXerror q => some q
  | .rxdVlan q => some q
  | .txdInit q => some q
  | .txdSend q => some q
  | .txdPolldd q => some q
  | .txdWaitdd q => some q
  | .txdGetaddr q => some q
  | .txdGetlen q => some q
  | .txdGetpaylen q => some q
  | .poolAllocate => none
  | .poolAlloc => none
  | .poolFree => none
  | .poolStat => none
  | .crInit => none
  | .crCanrx q => some q
  | .crRx q => some q
  | .crRxrecycle => none
  | .crCantx q => some q
  | .crTx q => some q
  | .crTxrecycle q => some q
  | .crTxalloc => none
  | .trInit => none
  | .trCanrx => none
  | .trRx => none
  | .trRxrecycle => none
  | .trCantx => none
  | .trTx => none
  | .trTxrecycle => none
  | .trTxalloc => none
  | .devInit => none
  | .devCanrx q => some q
  | .devRx q => some q
  | .devRxrecycle => none
  | .devCantx q => some q
  | .devTx q => some q
  | .devTxrecycle q => some q
  | .devTxalloc => none
  | .devInfo => none
  | .sysReset => none

/-- `i` can be written as a command word: its queue number fits `QID`, `CMD[15:8]` (R110). -/
def Instr.wellFormed (i : Instr) : Bool :=
  match i.queue? with
  | some q => decide (q < 256)
  | none => true

end Sys2Proof
end

