-- ==== Sys2Proof/Decode.lean ====
section
/-! DEFINITION. The decoder of the command word (R110, R111, R113), total, with a named reason for every reserved encoding, and the
encoder written from the same table (R112). -/

namespace Sys2Proof

/-- Why a command word is reserved (R111, R113). `step` answers each of them with UNSUPP (R113): none stops the model. -/
inductive DecodeError where
  /-- `CMD[31:16] != 0`. Safe: an operation of the block, no effect but `ST`. -/
  | highBitsSet
  /-- `CMD[7:0]` is not an operation code of R112. Safe: as above. -/
  | unknownOp
  /-- `CMD[15:8] != 0` on an operation that takes no queue. Safe: as above. -/
  | queueNotTaken
  /-- Not the four bytes of one command word (raised by `decodeBytes` only). Safe: never raised by `step`. -/
  | notOneWord
deriving DecidableEq, Repr

/-- What an operation code stands for: an operation that takes a queue, or one that takes none. -/
inductive OpForm where
  | queued (make : Nat → Instr)
  | plain (i : Instr)

/-- `CMD[7:0]`, the field `OP` (R110). -/
def opField (c : BitVec 32) : BitVec 8 := c.extractLsb' 0 8

/-- `CMD[15:8]`, the field `QID` (R110). -/
def qidField (c : BitVec 32) : BitVec 8 := c.extractLsb' 8 8

/-- `CMD[31:16]`, which must be zero (R110). -/
def zeroField (c : BitVec 32) : BitVec 16 := c.extractLsb' 16 16

/-- The operation map of R112: what each operation code stands for, `none` for a code that is not there. -/
def opForm : Nat → Option OpForm
  | 0x01 => some (.queued .rxdInit)
  | 0x02 => some (.queued .rxdSetaddr)
  | 0x03 => some (.queued .rxdRststat)
  | 0x04 => some (.queued .rxdDd)
  | 0x05 => some (.queued .rxdEop)
  | 0x06 => some (.queued .rxdLen)
  | 0x07 => some (.queued .rxdRsstype)
  | 0x08 => some (.queued .rxdPkttype)
  | 0x09 => some (.queued .rxdHdrlen)
  | 0x0A => some (.queued .rxdRsshash)
  | 0x0B => some (.queued .rxdXstatus)
  | 0x0C => some (.queued .rxdXerror)
  | 0x0D => some (.queued .rxdVlan)
  | 0x10 => some (.queued .txdInit)
  | 0x11 => some (.queued .txdSend)
  | 0x12 => some (.queued .txdPolldd)
  | 0x13 => some (.queued .txdWaitdd)
  | 0x14 => some (.queued .txdGetaddr)
  | 0x15 => some (.queued .txdGetlen)
  | 0x16 => some (.queued .txdGetpaylen)
  | 0x20 => some (.plain .poolAllocate)
  | 0x21 => some (.plain .poolAlloc)
  | 0x22 => some (.plain .poolFree)
  | 0x23 => some (.plain .poolStat)
  | 0x30 => some (.plain .crInit)
  | 0x31 => some (.queued .crCanrx)
  | 0x32 => some (.queued .crRx)
  | 0x33 => some (.plain .crRxrecycle)
  | 0x34 => some (.queued .crCantx)
  | 0x35 => some (.queued .crTx)
  | 0x36 => some (.queued .crTxrecycle)
  | 0x37 => some (.plain .crTxalloc)
  | 0x40 => some (.plain .trInit)
  | 0x41 => some (.plain .trCanrx)
  | 0x42 => some (.plain .trRx)
  | 0x43 => some (.plain .trRxrecycle)
  | 0x44 => some (.plain .trCantx)
  | 0x45 => some (.plain .trTx)
  | 0x46 => some (.plain .trTxrecycle)
  | 0x47 => some (.plain .trTxalloc)
  | 0x50 => some (.plain .devInit)
  | 0x51 => some (.queued .devCanrx)
  | 0x52 => some (.queued .devRx)
  | 0x53 => some (.plain .devRxrecycle)
  | 0x54 => some (.queued .devCantx)
  | 0x55 => some (.queued .devTx)
  | 0x56 => some (.queued .devTxrecycle)
  | 0x57 => some (.plain .devTxalloc)
  | 0x58 => some (.plain .devInfo)
  | 0x7F => some (.plain .sysReset)
  | _ => none

/-- Decode (R111): the zero field, then the operation code, then the queue field of an operation without a queue. -/
def decode (c : BitVec 32) : Except DecodeError Instr :=
  if zeroField c ≠ 0 then .error .highBitsSet
  else match opForm (opField c).toNat with
    | none => .error .unknownOp
    | some (.queued make) => .ok (make (qidField c).toNat)
    | some (.plain i) => if qidField c ≠ 0 then .error .queueNotTaken else .ok i

/-- The four bytes of a command word, bits 7:0 first (R70), decoded. -/
def decodeBytes : List Byte → Except DecodeError Instr
  | [b0, b1, b2, b3] => decode (b3 ++ b2 ++ b1 ++ b0 : BitVec 32)
  | _ => .error .notOneWord

/-- The bytes of a command word, bits 7:0 first (R70). -/
def wordBytes (c : BitVec 32) : List Byte :=
  [c.extractLsb' 0 8, c.extractLsb' 8 8, c.extractLsb' 16 8, c.extractLsb' 24 8]

/-- The operation code of an operation (R112). -/
def Instr.opcode : Instr → BitVec 8
  | .rxdInit _ => 0x01#8
  | .rxdSetaddr _ => 0x02#8
  | .rxdRststat _ => 0x03#8
  | .rxdDd _ => 0x04#8
  | .rxdEop _ => 0x05#8
  | .rxdLen _ => 0x06#8
  | .rxdRsstype _ => 0x07#8
  | .rxdPkttype _ => 0x08#8
  | .rxdHdrlen _ => 0x09#8
  | .rxdRsshash _ => 0x0A#8
  | .rxdXstatus _ => 0x0B#8
  | .rxdXerror _ => 0x0C#8
  | .rxdVlan _ => 0x0D#8
  | .txdInit _ => 0x10#8
  | .txdSend _ => 0x11#8
  | .txdPolldd _ => 0x12#8
  | .txdWaitdd _ => 0x13#8
  | .txdGetaddr _ => 0x14#8
  | .txdGetlen _ => 0x15#8
  | .txdGetpaylen _ => 0x16#8
  | .poolAllocate => 0x20#8
  | .poolAlloc => 0x21#8
  | .poolFree => 0x22#8
  | .poolStat => 0x23#8
  | .crInit => 0x30#8
  | .crCanrx _ => 0x31#8
  | .crRx _ => 0x32#8
  | .crRxrecycle => 0x33#8
  | .crCantx _ => 0x34#8
  | .crTx _ => 0x35#8
  | .crTxrecycle _ => 0x36#8
  | .crTxalloc => 0x37#8
  | .trInit => 0x40#8
  | .trCanrx => 0x41#8
  | .trRx => 0x42#8
  | .trRxrecycle => 0x43#8
  | .trCantx => 0x44#8
  | .trTx => 0x45#8
  | .trTxrecycle => 0x46#8
  | .trTxalloc => 0x47#8
  | .devInit => 0x50#8
  | .devCanrx _ => 0x51#8
  | .devRx _ => 0x52#8
  | .devRxrecycle => 0x53#8
  | .devCantx _ => 0x54#8
  | .devTx _ => 0x55#8
  | .devTxrecycle _ => 0x56#8
  | .devTxalloc => 0x57#8
  | .devInfo => 0x58#8
  | .sysReset => 0x7F#8

/-- The command word of an operation (R110): zero, `QID`, `OP`. A queue number that does not fit `QID` is truncated: `encode` says
something about well-formed operations only. -/
def encode (i : Instr) : BitVec 32 :=
  0#16 ++ BitVec.ofNat 8 (i.queue?.getD 0) ++ i.opcode

/-- The operation the decoder reads from the table's row of `nbits` bits with the value `w` (bit 0 the least significant bit of the
command word). The word is laid out as bytes, lowest first, and given to the decoder. -/
def decodeTableWord (nbits w : Nat) : Option Instr :=
  match decodeBytes (wordBytes (BitVec.ofNat 32 (w % 2 ^ nbits))) with
  | .ok i => some i
  | .error _ => none

end Sys2Proof
end

