-- ==== Sys2Proof/Config.lean ====
section
/-! DEFINITION. What one instance fixes at construction (R6, R30), the spec's example instance C, and the free values: constants
without a body that stand for what the spec leaves to the environment once the answers listed in `Env` are used up. -/

namespace Sys2Proof

/-- `FAMILY` (R3): the ring family, "fixed when the instance is constructed and never changed afterwards". -/
inductive Family where
  | classic
  | token
deriving DecidableEq, Repr, Inhabited

/-- `PICK` (R6, R187): which free entry an allocation takes. `least` is the spec's reference value; `other k` is any other choice
function, named by a number and given by the free value `Config.pickIndex k`. -/
inductive Pick where
  | least
  | other (k : Nat)
deriving DecidableEq, Repr, Inhabited

/-- `MAC` (R6): six octets, `b0` the first octet on the wire (R269). -/
structure Mac where
  b0 : Byte
  b1 : Byte
  b2 : Byte
  b3 : Byte
  b4 : Byte
  b5 : Byte
deriving DecidableEq, Repr, Inhabited

/-- The parameters of an instance (R6), held at the widths of the configuration registers that are their images (R30). The
two registers with one value in every instance, `CFG_RX_BATCH` and `CFG_DEVTYPE`, are `rxBatchSize` and `devTypeTag`. -/
structure Params where
  /-- `CFG_FAMILY`, `FAMILY` -/
  family : Family
  /-- `CFG_QS`, `QS`: slots of each ring -/
  qs : BitVec 16
  /-- `CFG_QN`, `QN`: number of queues -/
  qn : BitVec 9
  /-- `CFG_POOL_N` -/
  poolN : BitVec 32
  /-- `CFG_POOL_ESZ` -/
  poolEsz : BitVec 32
  /-- `CFG_TOK_HDR_LEN`, `TOK_HDR_LEN` -/
  tokHdrLen : BitVec 32
  /-- `CFG_MAC`, `MAC` -/
  mac : Mac
  /-- `CFG_DEVNAME`, `DEVNAME` -/
  devName : BitVec 64
  /-- `RX_RING_BASE[q]`, in the order of the queues -/
  rxRingBase : List Addr
  /-- `TX_RING_BASE[q]`, in the order of the queues -/
  txRingBase : List Addr
  /-- `POOL_PBASE` -/
  poolPBase : Addr
  /-- `POOL_VBASE` -/
  poolVBase : Addr
  /-- `PICK` -/
  pick : Pick
deriving DecidableEq, Repr, Inhabited

/-- `CFG_RX_BATCH` (R6, R30): "64, fixed by the source". -/
def rxBatchSize : Nat := 64

/-- `CFG_DEVTYPE` (R30): 1, the tag "network". -/
def devTypeTag : BitVec 8 := 1#8

/-- Instance C of spec/95_test_vectors.md: the instance whose power-on state is `State.reset`
(notes/assumptions/2.md: DESIGN CHOICE, the spec fixes no instance). `CFG_TOK_HDR_LEN` and `DEVNAME` are not given there; 0. -/
def Config.instanceC : Params where
  family := .classic
  qs := 4#16
  qn := 1#9
  poolN := 8#32
  poolEsz := 2048#32
  tokHdrLen := 0#32
  mac := ⟨0x52#8, 0x54#8, 0x00#8, 0x12#8, 0x34#8, 0x56#8⟩
  devName := 0#64
  rxRingBase := [0x1000#64]
  txRingBase := [0x2000#64]
  poolPBase := 0x80000000#64
  poolVBase := 0x40000000#64
  pick := .least

/-- FREE VALUE (notes/assumptions/5.md). The choice function `other k` of `PICK`: which of the listed free entries, taken modulo
their number, so that the result is always one of them (R6: "a function from a non-empty set of free indices to a member of it"). -/
opaque Config.pickIndex : Nat → List Nat → Nat

/-- FREE VALUE (notes/assumptions/6.md). `BACKING(bytes)` (R294) when the state lists no answer: the number of the draw, the bytes. -/
opaque Config.backingAnswer : Nat → Nat → Bool

/-- FREE VALUE (notes/assumptions/7.md). The `draw` among the free tokens (R287, R290) when the state lists no answer: the number
of the draw, taken modulo the number of free tokens. -/
opaque Config.tokenChoice : Nat → Nat

end Sys2Proof
end

