-- ==== Sys2Proof/Machine/State.lean ====
section
/-! DEFINITION. The state of one instance and of the agents around it (R20, R48), as plain data, and its value after reset (R50).
Every field names the rule that gives it; notes/assumptions/ says which fields are the model's own. -/

namespace Sys2Proof.Machine

/-! ## Buffer pool (R33 to R36) -/

/-- Ownership tags (R36). -/
inductive Tag where
  /-- in the pool -/
  | free
  /-- software-owned, held inside the block -/
  | swDriver
  /-- software-owned, lent to the host as an opaque handle -/
  | swStack
  /-- hardware-owned: "software must not touch the memory while hardware owns it" -/
  | hw
deriving DecidableEq, Repr, Inhabited

/-- The opaque handle (R108): pool-entry pointer, packet-data pointer, packet length. -/
structure Handle where
  entry : Word
  data : Word
  len : Word
deriving DecidableEq, Repr, Inhabited

/-- The record `ent[i]` of a pool entry (R34, R35). -/
structure Entry where
  tag : Tag := .free
  hdrLen : Word := 0#64
  pktLen : Word := 0#64
  cap : Word := 0#64
  wire : Option Handle := none
deriving DecidableEq, Repr, Inhabited

/-- The Buffer Pool (R33): `pool.present`, `pool.n`, `pool.esz` and the entry records. -/
structure Pool where
  present : Bool := false
  n : BitVec 32 := 0#32
  esz : BitVec 32 := 0#32
  ent : List Entry := []
deriving DecidableEq, Repr, Inhabited

/-! ## Ring drivers (R27 to R29, R40 to R46) -/

/-- The classic family's state of one queue (R27 to R29, R40 to R42). The buffers are named by their entry index. -/
structure Queue where
  rxIndex : BitVec 16 := 0#16
  txIndex : BitVec 16 := 0#16
  txClean : BitVec 16 := 0#16
  rxBuf : List (Option Nat) := []
  txBuf : List (Option Nat) := []
  rxq : List Nat := []
deriving DecidableEq, Repr, Inhabited

/-- The token family's state (R44 to R46). `freeTx` has its top at the end of the list. -/
structure TokenRing where
  rxBuffers : List (Option Nat) := []
  txBuffers : List (Option Nat) := []
  freeTx : List Nat := []
deriving DecidableEq, Repr, Inhabited

/-! ## Memory (R70, R71) -/

/-- DMA memory: (address, byte) pairs in the canonical form of `Memory.wf` (Sys2Proof/Machine/Memory.lean). -/
abbrev Memory := List Host.Cell

/-! ## The environment agents (R48, R280, R286, R294) -/

/-- A submitted receive token: its entry (R286). -/
structure RxFlight where
  tok : Nat
  entry : Nat
deriving DecidableEq, Repr, Inhabited

/-- A completed receive token: its entry and the lengths it will report (R286, R289). -/
structure RxDone where
  tok : Nat
  entry : Nat
  hdrLen : Word
  pktLen : Word
deriving DecidableEq, Repr, Inhabited

/-- A submitted transmit token: its entry and its byte count (R286, R290). -/
structure TxFlight where
  tok : Nat
  entry : Nat
  nbytes : Nat
deriving DecidableEq, Repr, Inhabited

/-- The transport agent (R286): per direction the tokens in flight, the completed tokens not yet consumed in the order of their
completion, the number of begin calls since reset, and whether a completion has been consumed since reset (R287, R290). -/
structure Transport where
  rxInflight : List RxFlight := []
  rxUsed : List RxDone := []
  rxCount : Nat := 0
  rxConsumed : Bool := false
  txInflight : List TxFlight := []
  txUsed : List TxFlight := []
  txCount : Nat := 0
  txConsumed : Bool := false
deriving DecidableEq, Repr, Inhabited

/-- What one `NIC.RXWB` draws (R281): the frame's length and bytes, the word `w0`, and the free fields of `w1`. A frame byte that is
not listed is drawn equal to the byte already there (notes/assumptions/9.md). -/
structure RxFrame where
  w0 : Word
  vlan : BitVec 16
  len : BitVec 16
  xerror : BitVec 12
  xstat : BitVec 18
  eop : BitVec 1
  bytes : List Byte
deriving DecidableEq, Repr, Inhabited

/-- What is left of a step of the NIC device that has begun and not ended: its writes still to come (R79: an access of the block may
fall between any two accesses of the device; notes/assumptions/27.md). -/
inductive NicWork where
  /-- `NIC.RXWB(q)` at `slot`: the frame bytes still to be written from `a` on, then both words of the write-back `f` -/
  | frame (q slot : Nat) (a : Addr) (bytes : List Byte) (f : RxFrame)
  /-- `NIC.RXWB(q)` at `slot`: the second word of the write-back `f`, Descriptor-Done in it -/
  | status (q slot : Nat) (f : RxFrame)
  /-- `NIC.TXDONE(q, slot)`: the packed word that was read as `p`, with the drawn bits -/
  | packed (q slot : Nat) (p : Word) (sta : BitVec 3)
deriving DecidableEq, Repr, Inhabited

/-- The NIC device agent: `dev_rx_next[q]` (R280), and the step it is in the middle of, if any (R79; notes/assumptions/27.md). -/
structure Nic where
  rxNext : List (BitVec 16) := []
  work : Option NicWork := none
deriving DecidableEq, Repr, Inhabited

/-- One step of an environment agent, with everything it draws. A step that is not enabled when its turn comes does nothing. -/
inductive EnvStep where
  /-- `NIC.RXWB(q)` (R281), begun: its reads -/
  | nicRxBegin (q : Nat) (f : RxFrame)
  /-- `NIC.TXDONE(q, s)` (R283) with the three drawn status bits, begun: its read -/
  | nicTxBegin (q slot : Nat) (sta : BitVec 3)
  /-- the next write of the NIC step that has begun; of a frame, the next `k + 1` bytes -/
  | nicWrite (k : Nat)
  /-- `NIC.RXWB(q)` (R281) from its first access to its last, with no access of the block in between -/
  | nicRxwb (q : Nat) (f : RxFrame)
  /-- `NIC.TXDONE(q, s)` (R283), likewise -/
  | nicTxdone (q slot : Nat) (sta : BitVec 3)
  /-- `VQ.DEVRX` (R295): completes the `k`-th token in flight, with its packet length and the bytes written into the entry -/
  | vqDevrx (k : Nat) (pktLen : Word) (bytes : List Byte)
  /-- `VQ.DEVTX` (R295): completes the `k`-th token in flight -/
  | vqDevtx (k : Nat)
deriving DecidableEq, Repr, Inhabited

/-- What the transport answers to one begin call (R287, R290). -/
inductive BeginAnswer where
  /-- as the contract says; where it draws among the free tokens, the `k`-th of them, counted modulo their number -/
  | contract (k : Nat)
  /-- an environment fault: this token, whatever is free -/
  | faulty (tok : BitVec 16)
  /-- an environment fault: `Full`, whatever is free -/
  | faultyFull
deriving DecidableEq, Repr, Inhabited

/-- The choices of the environment as plain data (R13: "a model takes it as a free input of the step"). -/
structure Env where
  /-- the device steps to take at each coming turn (R79) -/
  sched : List (List EnvStep) := []
  /-- the coming answers of `BACKING` (R294) -/
  backing : List Bool := []
  /-- the coming answers of the begin calls (R287, R290) -/
  begins : List BeginAnswer := []
  /-- the coming header contents of `T.fill_header` (R293) -/
  headers : List (List Byte) := []
  /-- the coming contents of newly allocated pool memory (R51) -/
  contents : List (List Byte) := []
  /-- how many free values of `Config` have been used -/
  drawn : Nat := 0
deriving DecidableEq, Repr, Inhabited

/-- One action of the host between two operations (R285). -/
inductive HostAction where
  /-- write `A0` -/
  | writeA0 (v : Word)
  /-- write `A1` -/
  | writeA1 (v : Word)
  /-- write `A2` -/
  | writeA2 (v : Word)
  /-- write `CMD`: issues an operation (R22) -/
  | writeCmd (c : BitVec 32)
  /-- write one byte of an entry at a driver pointer (R51, R86) -/
  | storeByte (p : Addr) (b : Byte)
  /-- read one byte of an entry at a driver pointer (R51, R86) -/
  | loadByte (p : Addr)
  /-- the external reset (R340) -/
  | extReset
  /-- nothing: the host lets one step pass, also a step of a spinning `TXD.WAITDD` (notes/assumptions/15.md) -/
  | pause
deriving DecidableEq, Repr, Inhabited

/-- Whether an operation executes (R22). -/
inductive Phase where
  /-- no operation executes: the host may act -/
  | idle
  /-- `CMD` has been written; the operation is executed by the next step -/
  | issued
  /-- the operation in `CMD` has begun and not ended: only a spinning `TXD.WAITDD` (R164) -/
  | running
deriving DecidableEq, Repr, Inhabited

/-! ## The state -/

/-- The state of the block and of the agents around it (R20, R48). -/
structure State where
  /-- the parameters, which the configuration registers are images of (R6, R30); no step changes them -/
  cfg : Params
  /-- operand registers (R21) -/
  a0 : Word
  a1 : Word
  a2 : Word
  /-- result registers (R21) -/
  v0 : Word
  v1 : Word
  v2 : Word
  /-- command register (R22) -/
  cmd : BitVec 32
  /-- status register (R23) -/
  st : BitVec 8
  /-- halt latch and its cause (R24) -/
  halted : Bool
  hcause : BitVec 8
  /-- initialised latch (R25) -/
  inited : Bool
  /-- whether an operation executes (R22; the model's own) -/
  phase : Phase
  /-- classic family, one record per queue (R27 to R29, R40 to R42) -/
  queues : List Queue
  /-- Buffer Pool (R33 to R36) -/
  pool : Pool
  /-- token family (R44 to R46) -/
  token : TokenRing
  /-- DMA memory: descriptor rings and pool buffers (R32, R51) -/
  mem : Memory
  /-- NIC device: `dev_rx_next[q]` (R280) and its step in progress -/
  nic : Nic
  /-- transport (R286) -/
  transport : Transport
  /-- the environment's coming choices (R13; the model's own) -/
  env : Env
  /-- the host's coming actions (R285; the model's own) -/
  host : List HostAction
deriving DecidableEq, Repr

/-- Why the model stops. Each reason is a point the spec puts outside itself; no ordinary data reaches one. -/
inductive Fault where
  /-- Raised by `TR.RX`, `TR.TXRECYCLE` and their `DEV.*` forms when a completion is consumed for an entry it was not submitted with:
  "otherwise the transport's behaviour is outside this spec" (R289, R292). Safe: the model stops where the spec says nothing. -/
  | transportContract
  /-- Raised by `CR.RX` and `DEV.RX` at a done slot that holds no buffer, which the spec says cannot be: "always Some" (R205, R40).
  Safe: the model stops where the spec says nothing. -/
  | ringSlotEmpty
  /-- Raised by `step` when the host touches a byte it does not hold: "A model either has no such step ... or makes it a fault" (R86).
  Safe: the model stops where the spec assumes the host never goes. -/
  | hostRights
deriving DecidableEq, Repr

/-- Why the model refuses. -/
inductive Refusal where
  /-- Raised by an arm of `exec` whose operation has no meaning yet; no arm raises it now. Safe. -/
  | notModelled (mnemonic : String)
  /-- Raised by `step` on an instance the spec refuses at construction (R6, R73, R76). Safe: no such instance exists. -/
  | badInstance
deriving DecidableEq, Repr

/-! ## Reset (R50, R340) -/

/-- The state after power-on of the instance `p` with the memory contents `m` (R50; "after power-on their contents are
unspecified (any value)", R341). -/
def State.powerOn (p : Params) (m : Memory) : State where
  cfg := p
  a0 := 0#64
  a1 := 0#64
  a2 := 0#64
  v0 := 0#64
  v1 := 0#64
  v2 := 0#64
  cmd := 0#32
  st := 0#8
  halted := false
  hcause := 0#8
  inited := false
  phase := .idle
  queues := List.replicate p.qn.toNat
    { rxBuf := List.replicate p.qs.toNat none, txBuf := List.replicate p.qs.toNat none }
  pool := {}
  token := { rxBuffers := List.replicate p.qs.toNat none, txBuffers := List.replicate p.qs.toNat none }
  mem := m
  nic := { rxNext := List.replicate p.qn.toNat 0#16 }
  transport := {}
  env := {}
  host := []

/-- The machine right after reset: instance C of the spec's test vectors (notes/assumptions/2.md), nothing written in memory. -/
def State.reset : State := State.powerOn Config.instanceC []

end Sys2Proof.Machine
end

