-- ==== Sys2Proof/Machine/Flags.lean ====
section
/-! DEFINITION. The status bits of descriptors (R31), the result kinds of `ST` (R23, R300) and the causes of `HCAUSE` (R304). -/

namespace Sys2Proof.Machine

/-! ## Descriptor status bits (R31, R102, R105) -/

/-- Receive Descriptor-Done: bit 0 of the second word. -/
def rxDone (w1 : Word) : Bool := w1.getLsbD 0

/-- Receive End-of-packet: bit 1 of the second word. -/
def rxEop (w1 : Word) : Bool := w1.getLsbD 1

/-- Transmit Descriptor-Done: bit 0 of the packed word's status nibble. -/
def txDone (p : Word) : Bool := p.getLsbD 0

/-- A truth value as the operations return it in `V0`. -/
def boolWord (b : Bool) : Word := if b then 1#64 else 0#64

/-! ## Result kinds (R23, R300) -/

/-- The kinds an operation ends with. -/
inductive Kind where
  | ok
  | again
  | nomem
  | inval
  | badState
  | unsupp
deriving DecidableEq, Repr

/-- The code of a kind in `ST` (R23). -/
def Kind.code : Kind → BitVec 8
  | .ok => 0#8
  | .again => 1#8
  | .nomem => 2#8
  | .inval => 3#8
  | .badState => 4#8
  | .unsupp => 5#8

/-! ## Causes of a halt (R304) -/

/-- The causes of `raise BadState(cause)`. -/
inductive Cause where
  | handle
  | poolExists
  | notInited
  | alreadyInited
  | rxEmptyBatch
  | rxNoEop
  | tokenMismatch
  | tokenRange
  | rxSlotAbsent
  | rxSlotOccupied
  | txSlotOccupied
  | txSlotAbsent
  | transport
deriving DecidableEq, Repr

/-- The code of a cause in `HCAUSE` (R304). -/
def Cause.code : Cause → BitVec 8
  | .handle => 1#8
  | .poolExists => 2#8
  | .notInited => 3#8
  | .alreadyInited => 4#8
  | .rxEmptyBatch => 5#8
  | .rxNoEop => 6#8
  | .tokenMismatch => 7#8
  | .tokenRange => 8#8
  | .rxSlotAbsent => 9#8
  | .rxSlotOccupied => 10#8
  | .txSlotOccupied => 11#8
  | .txSlotAbsent => 12#8
  | .transport => 13#8

end Sys2Proof.Machine
end

