-- ==== Sys2Proof/Machine/Memory.lean ====
section
/-! DEFINITION. DMA memory: bytes, the canonical form, and the little-endian accesses of R70 and R74. -/

namespace Sys2Proof.Machine

/-- What an address that is not listed reads as (notes/assumptions/4.md: DESIGN CHOICE, unsafe; the spec: "any value", R50). -/
def Memory.unlisted : Byte := 0#8

/-- The byte at an address. -/
def Memory.get : Memory → Nat → Byte
  | [], _ => Memory.unlisted
  | (b, w) :: m, a => if a = b then w else Memory.get m a

/-- Put a listed byte in its place among rising addresses. -/
def Memory.insertCell (a : Nat) (v : Byte) : Memory → Memory
  | [] => [(a, v)]
  | c :: m => if a < c.1 then (a, v) :: c :: m else c :: Memory.insertCell a v m

/-- The memory with the byte at `a` set to `v`; a byte equal to what an unlisted address reads as is not listed. -/
def Memory.put (m : Memory) (a : Nat) (v : Byte) : Memory :=
  let rest := m.filter (fun c => c.1 != a)
  if v = Memory.unlisted then rest else Memory.insertCell a v rest

/-- Addresses strictly rise from `lo` on, lie in the address space (R71), and no entry equals what an unlisted address reads as. -/
def Memory.wfFrom (lo : Nat) : Memory → Bool
  | [] => true
  | (a, v) :: m => decide (lo ≤ a) && decide (a < 2 ^ 64) && decide (v ≠ Memory.unlisted) && Memory.wfFrom (a + 1) m

/-- The canonical form. -/
def Memory.wf (m : Memory) : Bool := Memory.wfFrom 0 m

/-- `MemRead` of `n` bytes (R11, R70): the little-endian value of the bytes at `a`, `a + 1`, ..., zero-extended to 64 bits. -/
def Memory.load (m : Memory) (a : Addr) : Nat → Word
  | 0 => 0#64
  | n + 1 => (Memory.load m (a + 1#64) n <<< 8) ||| (m.get a.toNat).setWidth 64

/-- `MemWrite` of `n` bytes (R11, R70): the low `8 n` bits of `v`, lowest byte at the lowest address. -/
def Memory.store (m : Memory) (a : Addr) : Nat → Word → Memory
  | 0, _ => m
  | n + 1, v => Memory.store (m.put a.toNat (v.setWidth 8)) (a + 1#64) n (v >>> 8)

/-- Consecutive bytes written from `a` on (a frame or a header, R281, R293, R295). -/
def Memory.storeBytes (m : Memory) (a : Addr) : List Byte → Memory
  | [] => m
  | b :: bs => Memory.storeBytes (m.put a.toNat b) (a + 1#64) bs

end Sys2Proof.Machine
end

