-- ==== Sys2Proof/Machine/Operands.lean ====
section
/-! DEFINITION. Operands and fields: bit ranges (R9), the fields of the receive write-back format (R102) and of the transmit
descriptor (R104 to R107, R117), how a length operand becomes fields (R109), and the derived addresses of R14. -/

namespace Sys2Proof.Machine

/-- `v[hi:lo]` zero-extended to 64 bits: both ends included (R9, R15 (e)). -/
def bits (v : Word) (hi lo : Nat) : Word := (v.extractLsb' lo (hi + 1 - lo)).setWidth 64

/-! ## Receive descriptor, write-back format (R102) -/

/-- `RSS_TYPE`: W0 bits 3:0. -/
def rxRssType (w0 : Word) : Word := bits w0 3 0
/-- `PKT_TYPE`: W0 bits 16:4. -/
def rxPktType (w0 : Word) : Word := bits w0 16 4
/-- `HDR_LEN`: W0 bits 30:21. -/
def rxHdrLen (w0 : Word) : Word := bits w0 30 21
/-- `RSS_HASH`: W0 bits 63:32. -/
def rxRssHash (w0 : Word) : Word := bits w0 63 32
/-- `XSTATUS`: W1 bits 19:0. -/
def rxXstatus (w1 : Word) : Word := bits w1 19 0
/-- `XERROR`: W1 bits 31:20. -/
def rxXerror (w1 : Word) : Word := bits w1 31 20
/-- `PKT_LEN`: W1 bits 47:32, "both ends included" (R146). -/
def rxPktLen (w1 : Word) : Word := bits w1 47 32
/-- `VLAN`: W1 bits 63:48. -/
def rxVlan (w1 : Word) : Word := bits w1 63 48

/-- The word the device writes last (R281): VLAN, length, errors, 18 status bits, End-of-packet, Descriptor-Done set. -/
def rxWriteback (f : RxFrame) : Word :=
  (f.vlan ++ f.len ++ f.xerror ++ f.xstat ++ f.eop ++ 1#1 : BitVec (16 + 16 + 12 + 18 + 1 + 1))

/-! ## Transmit descriptor (R104 to R107) -/

/-- `TX_PAYLEN_SHIFT` (R105). -/
def txPaylenShift : Nat := 14
/-- `DATA_LEN`: `trunc_16(len)` (R109). -/
def txDataLen (len : Word) : Word := bits len 15 0
/-- `PACKED`: `trunc_32(len << 14)` (R109): `PAYLEN` in bits 31:14, zeros in `STA`, `IDX`, `CC`, `POPTS`. -/
def txPacked (len : Word) : Word := bits (len <<< txPaylenShift) 31 0
/-- `PAYLEN`: bits 31:14 of the packed word (R105). -/
def txPaylen (p : Word) : Word := bits p 31 14
/-- `DTYP_MAC_RSV` as `TXD.SEND` writes it (R107): advanced data descriptor. -/
def txTypeByte : Word := 0x30#64
/-- The command bits (R106). -/
def dcmdEop : Word := 0x01#64
def dcmdIfcs : Word := 0x02#64
def dcmdRs : Word := 0x08#64
def dcmdDext : Word := 0x20#64
/-- `DCMD` as `TXD.SEND` writes it (R106): DEXT, RS, IFCS, EOP. -/
def txCommandByte : Word := dcmdDext ||| dcmdRs ||| dcmdIfcs ||| dcmdEop
/-- The packed word after `NIC.TXDONE` (R283): bits 31:4 kept, three drawn bits, Descriptor-Done set. -/
def txDonePacked (p : Word) (sta : BitVec 3) : Word :=
  (p.extractLsb' 4 28 ++ sta ++ 1#1 : BitVec (28 + 3 + 1)).setWidth 64

/-! ## Parameters as numbers, and the derived addresses (R6, R14) -/

/-- `QS` (R6). -/
def QS (p : Params) : Nat := p.qs.toNat
/-- `QN` (R6). -/
def QN (p : Params) : Nat := p.qn.toNat

/-- `rxd(q, s) = RX_RING_BASE[q] + 16 s` (R14). -/
def rxd (p : Params) (q slot : Nat) : Addr := p.rxRingBase.getD q 0#64 + BitVec.ofNat 64 (16 * slot)
/-- `txd(q, s) = TX_RING_BASE[q] + 16 s` (R14). -/
def txd (p : Params) (q slot : Nat) : Addr := p.txRingBase.getD q 0#64 + BitVec.ofNat 64 (16 * slot)

/-- `ptr(i) = trunc_64(POOL_VBASE + i x esz)` (R14). -/
def ptr (p : Params) (esz : BitVec 32) (i : Nat) : Word := p.poolVBase + BitVec.ofNat 64 (i * esz.toNat)
/-- `phys(i) = trunc_64(POOL_PBASE + i x esz)` (R14). -/
def phys (p : Params) (esz : BitVec 32) (i : Nat) : Word := p.poolPBase + BitVec.ofNat 64 (i * esz.toNat)

/-- Ring index advance (R15 (a), R26): `(i + 1) mod QS`. -/
def ringNext (p : Params) (i : BitVec 16) : BitVec 16 := BitVec.ofNat 16 ((i.toNat + 1) % QS p)

/-- `DEV.INFO` 1 (R269): the MAC address, the first octet in bits 7:0. -/
def macWord (m : Mac) : Word := (m.b5 ++ m.b4 ++ m.b3 ++ m.b2 ++ m.b1 ++ m.b0 : BitVec (8 + 8 + 8 + 8 + 8 + 8)).setWidth 64

/-! ## Which instances may be built (R3, R6, R73, R76) -/

/-- The regions `[a, a + n)` and `[b, b + m)` do not meet. -/
def disjoint (a n b m : Nat) : Bool := decide (a + n ≤ b) || decide (b + m ≤ a) || n == 0 || m == 0

/-- Every region of the list is disjoint from every later one (R76: "pairwise disjoint in the physical space"). -/
def allDisjoint : List (Nat × Nat) → Bool
  | [] => true
  | r :: rs => rs.all (fun r' => disjoint r.1 r.2 r'.1 r'.2) && allDisjoint rs

/-- The rings of an instance, as physical regions (R76). -/
def ringRegions (p : Params) : List (Nat × Nat) := (p.rxRingBase ++ p.txRingBase).map (fun b => (b.toNat, 16 * QS p))

/-- A pool of `bytes` bytes has its place at `POOL_PBASE` and `POOL_VBASE` (R76, R294): it wraps past 2^64 in neither space and meets
no ring. -/
def poolRoom (p : Params) (bytes : Nat) : Bool :=
  decide (p.poolPBase.toNat + bytes ≤ 2 ^ 64) && decide (p.poolVBase.toNat + bytes ≤ 2 ^ 64)
  && (ringRegions p).all (fun r => disjoint p.poolPBase.toNat bytes r.1 r.2)

/-- An instance that may be constructed: the ranges of R6, `QN = 1` and a pool of `2 x QS` entries for the token family, ring bases
multiples of 16 (R73: "an instance whose ring base is not a multiple of 16 is refused at construction"), no wrap, no overlap (R76). -/
def validParams (p : Params) : Bool :=
  decide (1 ≤ QS p) && decide (QS p ≤ 32768) && decide (1 ≤ QN p) && decide (QN p ≤ 256)
  && (p.family == .classic || (QN p == 1 && p.poolN.toNat == 2 * QS p))
  && decide (p.tokHdrLen ≤ p.poolEsz)
  && p.rxRingBase.length == QN p && p.txRingBase.length == QN p
  && (p.rxRingBase ++ p.txRingBase).all (fun b => b.toNat % 16 == 0)
  && (ringRegions p).all (fun r => decide (r.1 + r.2 ≤ 2 ^ 64)) && allDisjoint (ringRegions p)
  && poolRoom p (p.poolN.toNat * p.poolEsz.toNat)

end Sys2Proof.Machine
end

