-- ==== Sys2Proof/Machine/Environment.lean ====
section
/-! DEFINITION. The steps of the environment agents: the NIC device (R280 to R284), the device side of the transport (R295), and the
turn they get before every memory access and transport call of the block (R79, notes/assumptions/8.md). A step of the NIC device is
its single accesses, so that an access of the block may fall between any two of them (notes/assumptions/27.md). -/

namespace Sys2Proof.Machine

/-! ## Reading and changing one record -/

/-- The classic state of queue `q`. -/
def State.queue (s : State) (q : Nat) : Queue := s.queues.getD q {}

/-- Change the classic state of queue `q`. -/
def State.setQueue (s : State) (q : Nat) (f : Queue → Queue) : State := { s with queues := s.queues.modify q f }

/-- The record `ent[i]`. -/
def State.entry (s : State) (i : Nat) : Entry := s.pool.ent.getD i {}

/-- Change the record `ent[i]`. -/
def State.setEnt (s : State) (i : Nat) (f : Entry → Entry) : State :=
  { s with pool := { s.pool with ent := s.pool.ent.modify i f } }

/-- The buffer a slot array holds at a slot or token, `None` where there is none. -/
def slotAt (l : List (Option Nat)) (i : Nat) : Option Nat := l.getD i none

/-- `ptr(i)` (R14). -/
def State.ptrOf (s : State) (i : Nat) : Word := ptr s.cfg s.pool.esz i

/-- `phys(i)` (R14). -/
def State.physOf (s : State) (i : Nat) : Word := phys s.cfg s.pool.esz i

/-! ## The NIC device -/

/-- `dev_rx_next[q]` (R280). -/
def State.devRxNext (s : State) (q : Nat) : BitVec 16 := s.nic.rxNext.getD q 0#16

/-- The Rx slot `slot` of queue `q` is armed (R281): it holds a buffer tagged `Hw` and its Descriptor-Done bit is 0. -/
def State.rxArmed (s : State) (q slot : Nat) : Bool :=
  match slotAt (s.queue q).rxBuf slot with
  | none => false
  | some i => decide ((s.entry i).tag = .hw) && !rxDone (s.mem.load (rxd s.cfg q slot + 8#64) 8)


/-- The Tx slot `slot` of queue `q` is handed over and not reported (R283). -/
def State.txPending (s : State) (q slot : Nat) : Bool :=
  match slotAt (s.queue q).txBuf slot with
  | none => false
  | some i => decide ((s.entry i).tag = .hw) && !txDone (s.mem.load (txd s.cfg q slot + 12#64) 4)

/-- `NIC.RXWB(q)` begun (R281): where its slot is armed, the address is read, and what it will write is drawn. The device makes one
step at a time: with a step in progress this is no step. -/
def nicRxBegin (q : Nat) (f : RxFrame) (s : State) : State :=
  let slot := (s.devRxNext q).toNat
  if s.nic.work = none ∧ s.rxArmed q slot = true then
    let bytes := f.bytes.take (min f.len.toNat s.pool.esz.toNat)
    { s with nic := { s.nic with work := some (.frame q slot (s.mem.load (rxd s.cfg q slot) 8) bytes f) } }
  else s

/-- `NIC.TXDONE(q, s)` begun (R283): where the slot is handed over and not reported, the packed word is read. -/
def nicTxBegin (q slot : Nat) (sta : BitVec 3) (s : State) : State :=
  if s.nic.work = none ∧ s.txPending q slot = true then
    { s with nic := { s.nic with work := some (.packed q slot (s.mem.load (txd s.cfg q slot + 12#64) 4) sta) } }
  else s

/-- The next write of the step in progress, in the order of R281: frame bytes, then W0, then W1 with Descriptor-Done, written last,
and with it the next slot; or the packed word of R283 with Descriptor-Done set. Of a frame `k + 1` bytes are written at once. -/
def nicWrite (k : Nat) (s : State) : State :=
  match s.nic.work with
  | none => s
  | some (.frame q slot a (b :: bytes) f) =>
    { s with
      mem := s.mem.storeBytes a ((b :: bytes).take (k + 1))
      nic := { s.nic with work := some (.frame q slot (a + BitVec.ofNat 64 (k + 1)) (bytes.drop k) f) } }
  | some (.frame q slot _ [] f) =>
    { s with mem := s.mem.store (rxd s.cfg q slot) 8 f.w0, nic := { s.nic with work := some (.status q slot f) } }
  | some (.status q slot f) =>
    { s with
      mem := s.mem.store (rxd s.cfg q slot + 8#64) 8 (rxWriteback f)
      nic := { rxNext := s.nic.rxNext.set q (BitVec.ofNat 16 ((slot + 1) % QS s.cfg)), work := none } }
  | some (.packed q slot p sta) =>
    { s with mem := s.mem.store (txd s.cfg q slot + 12#64) 4 (txDonePacked p sta), nic := { s.nic with work := none } }

/-- `NIC.RXWB(q)` as a whole (R281): begun, the whole frame, W0, W1. -/
def nicRxwb (q : Nat) (f : RxFrame) (s : State) : State :=
  if s.nic.work = none then nicWrite f.bytes.length (nicWrite f.bytes.length (nicWrite f.bytes.length (nicRxBegin q f s))) else s

/-- `NIC.TXDONE(q, s)` as a whole (R283): begun, and its write. -/
def nicTxdone (q slot : Nat) (sta : BitVec 3) (s : State) : State :=
  if s.nic.work = none then nicWrite 0 (nicTxBegin q slot sta s) else s

/-! ## The device side of the transport -/

/-- `VQ.DEVRX` (R295, R289): the `k`-th token in flight is completed with `TOK_HDR_LEN` and a packet length that fits the entry. -/
def vqDevrx (k : Nat) (pktLen : Word) (bytes : List Byte) (s : State) : State :=
  let t := s.transport
  match t.rxInflight[k]? with
  | none => s
  | some x =>
    if s.cfg.tokHdrLen.toNat + pktLen.toNat ≤ s.pool.esz.toNat then
      { s with
        mem := s.mem.storeBytes (s.physOf x.entry) (bytes.take (s.cfg.tokHdrLen.toNat + pktLen.toNat))
        transport := { t with
          rxInflight := t.rxInflight.eraseIdx k
          rxUsed := t.rxUsed ++ [⟨x.tok, x.entry, s.cfg.tokHdrLen.setWidth 64, pktLen⟩] } }
    else s

/-- `VQ.DEVTX` (R295): the `k`-th token in flight is completed. -/
def vqDevtx (k : Nat) (s : State) : State :=
  let t := s.transport
  match t.txInflight[k]? with
  | none => s
  | some x => { s with transport := { t with txInflight := t.txInflight.eraseIdx k, txUsed := t.txUsed ++ [x] } }

/-! ## Turns -/

/-- One step of an environment agent; a step that is not enabled does nothing. -/
def envStep (s : State) : EnvStep → State
  | .nicRxBegin q f => nicRxBegin q f s
  | .nicTxBegin q slot sta => nicTxBegin q slot sta s
  | .nicWrite k => nicWrite k s
  | .nicRxwb q f => nicRxwb q f s
  | .nicTxdone q slot sta => nicTxdone q slot sta s
  | .vqDevrx k pktLen bytes => vqDevrx k pktLen bytes s
  | .vqDevtx k => vqDevtx k s

/-- The environment's turn: the device steps scheduled for this point, in order (R79: "A step of the NIC device may fall between
any two accesses of the block, also inside one operation"). -/
def State.envTurn (s : State) : State :=
  match s.env.sched with
  | [] => s
  | es :: rest => es.foldl envStep { s with env := { s.env with sched := rest } }

end Sys2Proof.Machine
end

