-- ==== Sys2Proof/Machine/Ops.lean ====
section
/-! DEFINITION. The operations every meaning is written over: how an operation ends (R12, R300), taking the Bad-state trap (R310) and
the reset that alone leaves it (R311, R340), the memory primitives (R11), the descriptor codec (R141 to R143, R161, R162), the pool's
internal functions (R181, R183, R185, R187, R188) and the preambles with their order of checks (R308). -/

namespace Sys2Proof.Machine

/-- The outcome of an operation. -/
abbrev Result := Host.Outcome State Fault Refusal

/-! ## Registers (R10, R21) -/

/-- The register file `x[i]` (R10). -/
def State.x (s : State) : Fin 6 → Word
  | 0 => s.a0
  | 1 => s.a1
  | 2 => s.a2
  | 3 => s.v0
  | 4 => s.v1
  | 5 => s.v2

/-- The handle in the operand registers (R21, R108). -/
def State.handleIn (s : State) : Handle := ⟨s.a0, s.a1, s.a2⟩

/-! ## How an operation ends (R12, R300) -/

/-- `return K`: `ST` and nothing else. -/
def State.finish (s : State) (k : Kind) : State := { s with st := k.code }

/-- `return OK()`. -/
def State.ok (s : State) : State := s.finish .ok

/-- `return OK(V0 <- v)`. -/
def State.ok1 (s : State) (v : Word) : State := { s with v0 := v, st := Kind.ok.code }

/-- `return OK(V0 <- a, V1 <- b, V2 <- c)`. -/
def State.ok3 (s : State) (a b c : Word) : State := { s with v0 := a, v1 := b, v2 := c, st := Kind.ok.code }

/-! ## The trap and the way out of it (R310, R311, R340) -/

/-- `raise BadState(c)` (R310): "`HCAUSE <- c`; `HALTED <- 1`; `ST <- 4`; the operation ends. It writes nothing else". -/
def State.raise (s : State) (c : Cause) : State := { s with hcause := c.code, halted := true, st := Kind.badState.code }

/-- The reset (R340): every piece of block state and the environment agents at their reset values; the configuration, the memory
(R341) and the coming choices of the environment and the host are kept. There is no other way out of a halt (R311). -/
def State.resetBlock (s : State) : State :=
  { State.powerOn s.cfg s.mem with env := s.env, host := s.host }

/-! ## Memory primitives (R11, R79) -/

/-- `MemRead(a, n)` by the block: the environment's turn, then the read. -/
def State.memRead (s : State) (a : Addr) (n : Nat) : Word × State := (s.envTurn.mem.load a n, s.envTurn)

/-- `MemWrite(a, n, v)` by the block: the environment's turn, then the write. -/
def State.memWrite (s : State) (a : Addr) (n : Nat) (v : Word) : State :=
  { s.envTurn with mem := s.envTurn.mem.store a n v }

/-! ## Descriptor codec on the descriptor at `d` (without the command layer's preamble) -/

/-- `rx_init(d)` (R141): `PKT_ADDR`, then `HDR_ADDR`. -/
def State.rxInit (s : State) (d : Addr) : State := (s.memWrite d 8 0#64).memWrite (d + 8#64) 8 0#64

/-- `rx_setaddr(d, a)` (R142). -/
def State.rxSetAddr (s : State) (d : Addr) (a : Word) : State := s.memWrite d 8 a

/-- `rx_rststat(d)` (R143). -/
def State.rxRstStat (s : State) (d : Addr) : State := s.memWrite (d + 8#64) 8 0#64

/-- `tx_init(d)` (R161): the five fields in the order of their offsets. -/
def State.txInit (s : State) (d : Addr) : State :=
  ((((s.memWrite d 8 0#64).memWrite (d + 8#64) 2 0#64).memWrite (d + 10#64) 1 0#64).memWrite (d + 11#64) 1 0#64).memWrite
    (d + 12#64) 4 0#64

/-- `tx_send(d, a, l)` (R162): address, length, type byte, packed word, command byte last. -/
def State.txSend (s : State) (d : Addr) (a l : Word) : State :=
  ((((s.memWrite d 8 a).memWrite (d + 8#64) 2 (txDataLen l)).memWrite (d + 10#64) 1 txTypeByte).memWrite
    (d + 12#64) 4 (txPacked l)).memWrite (d + 11#64) 1 txCommandByte

/-! ## Buffer pool, internal functions -/

/-- The free entries, in rising order (R187). -/
def Pool.freeEntries (p : Pool) : List Nat := (List.range p.ent.length).filter (fun i => decide ((p.ent.getD i {}).tag = .free))

/-- `PICK(F)` (R6): a member of the set `f`; `none` only of the empty set. -/
def pickFrom (k : Pick) (f : List Nat) : Option Nat :=
  match k with
  | .least => f.head?
  | .other k => f[Config.pickIndex k f % f.length]?

/-- `Lease()` (R187): which entry an allocation takes. -/
def State.lease (s : State) : Option Nat := if s.pool.present then pickFrom s.cfg.pick s.pool.freeEntries else none

/-- The handle of entry `i` with header length `hdr` and packet length `len` (R108). -/
def State.handleOf (s : State) (i : Nat) (hdr len : Word) : Handle := ⟨s.ptrOf i, s.ptrOf i + hdr, len⟩

/-- `Emit(i, hdr, len)` followed by `return OK(V0, V1, V2)` (R188). -/
def State.emit (s : State) (i : Nat) (hdr len : Word) : State :=
  let h := s.handleOf i hdr len
  (s.setEnt i (fun _ => ⟨.swStack, hdr, len, s.pool.esz.setWidth 64, some h⟩)).ok3 h.entry h.data h.len

/-- `Reclaim(h)` (R183): the entry whose handle `h` is, or a failure; every check in the order of the rule. -/
def State.reclaim (s : State) (h : Handle) : Option Nat :=
  if s.pool.present = false then none
  else if h.entry < s.cfg.poolVBase then none
  else
    let off := (h.entry - s.cfg.poolVBase).toNat
    if off % s.pool.esz.toNat ≠ 0 then none
    else
      let i := off / s.pool.esz.toNat
      if s.pool.n.toNat ≤ i then none
      else if (s.entry i).tag ≠ .swStack then none
      else if (s.entry i).wire ≠ some h then none
      else some i

/-- `Release(i)` (R185). -/
def State.release (s : State) (i : Nat) : State := s.setEnt i (fun e => { e with tag := .free, wire := none })

/-- `BACKING(bytes)` (R294): the next listed answer, or a free value; `ok` only where the pool has its place, since "On `ok` the platform
guarantees `bytes` bytes of DMA-visible memory at `POOL_PBASE` / `POOL_VBASE`" and R76 lets that memory neither meet a ring nor wrap
(DEDUCED, notes/assumptions/6.md). -/
def State.askBacking (s : State) (bytes : Nat) : Bool × State :=
  match s.env.backing with
  | b :: rest => (b && poolRoom s.cfg bytes, { s with env := { s.env with backing := rest } })
  | [] =>
    (Config.backingAnswer s.env.drawn bytes && poolRoom s.cfg bytes, { s with env := { s.env with drawn := s.env.drawn + 1 } })

/-- The pool of `count` free entries of `size` bytes (R181). -/
def Pool.fresh (count size : Nat) : Pool :=
  ⟨true, BitVec.ofNat 32 count, BitVec.ofNat 32 size, List.replicate count {}⟩

/-- The contents of newly allocated pool memory (R51: "Contents after allocation are unspecified (`draw`)"): the next listed bytes,
written from `POOL_PBASE` on; a byte that is not listed is drawn equal to the byte already there (notes/assumptions/9.md). -/
def State.drawContents (s : State) (bytes : Nat) : State :=
  { s with
    mem := s.mem.storeBytes s.cfg.poolPBase ((s.env.contents.headD []).take bytes)
    env := { s.env with contents := s.env.contents.tail } }

/-- `PoolCreate(count, size)` (R181): whether it succeeds, and the state after it, with the contents of the new pool drawn (R51); on
`false` (NOMEM) the block's state is unchanged. -/
def State.poolCreate (s : State) (count size : Nat) : Bool × State :=
  if 2 ^ 32 ≤ count ∨ 2 ^ 32 ≤ size then (false, s)
  else if 0 < count ∧ size = 0 then (false, s)
  else
    let r := s.askBacking (count * size)
    if r.1 then (true, { r.2.drawContents (count * size) with pool := Pool.fresh count size }) else (false, r.2)

/-- The number of entries with a tag (R37). -/
def Pool.count (p : Pool) (t : Tag) : Nat := p.ent.countP (fun e => decide (e.tag = t))

/-- Entry `i` handed to the hardware with empty metadata (R201, R231: the steps before the hand-over line). -/
def State.clearEnt (s : State) (i : Nat) : State :=
  s.setEnt i (fun e => { e with hdrLen := 0#64, pktLen := 0#64, cap := s.pool.esz.setWidth 64, wire := none })

/-- `ent[i].tag <- t`. -/
def State.setTag (s : State) (i : Nat) (t : Tag) : State := s.setEnt i (fun e => { e with tag := t })

/-! ## Preambles: `some t` where the preamble ends the operation with the state `t` (R308) -/

/-- Item 2: halted (R309). -/
def haltCheck (s : State) : Option State := if s.halted then some (s.finish .badState) else none

/-- Item 6: the queue number (R114). -/
def queueCheck (q : Nat) (s : State) : Option State := if QN s.cfg ≤ q then some (s.finish .inval) else none

/-- Item 6: the slot operand, compared as a 64-bit value (R140, R160). -/
def slotCheck (s : State) : Option State := if QS s.cfg ≤ s.a0.toNat then some (s.finish .inval) else none

/-- Item 4: the family (R306). -/
def familyCheck (f : Family) (s : State) : Option State := if s.cfg.family = f then none else some (s.finish .unsupp)

/-- Item 5: initialised (R307). -/
def initedCheck (s : State) : Option State := if s.inited then none else some (s.raise .notInited)

/-- The preamble of `RXD.*` and `TXD.*` (R140, R160). -/
def codecCheck (q : Nat) (s : State) : Option State := haltCheck s <|> queueCheck q s <|> slotCheck s

/-- The preamble of `CR.*` other than `CR.INIT` (R200 steps 1 to 3). -/
def crCheck (s : State) : Option State := haltCheck s <|> familyCheck .classic s <|> initedCheck s

/-- The preamble of `CR.*` that take a queue (R200). -/
def crQueueCheck (q : Nat) (s : State) : Option State := crCheck s <|> queueCheck q s

/-- The preamble of `TR.*` other than `TR.INIT` (R230). -/
def trCheck (s : State) : Option State := haltCheck s <|> familyCheck .token s <|> initedCheck s

/-- The preamble of `CR.INIT` and `TR.INIT` (R200, R230 steps 1 and 2, then R307 and the pool check of R308 item 5). -/
def initCheck (f : Family) (s : State) : Option State :=
  haltCheck s <|> familyCheck f s
    <|> (if s.inited then some (s.raise .alreadyInited) else none)
    <|> (if s.pool.present then some (s.raise .poolExists) else none)

end Sys2Proof.Machine
end

