-- ==== Sys2Proof/Machine/BufferPool.lean ====
section
/-! DEFINITION. The Buffer Pool operations (spec/42_pool.md). -/

namespace Sys2Proof.Machine

/-- `POOL.ALLOCATE` (R181). -/
def execPoolAllocate (s : State) : Result :=
  .next ((haltCheck s).getD
    (if s.pool.present || s.inited then s.raise .poolExists
     else
       let r := s.poolCreate s.a0.toNat s.a1.toNat
       r.2.finish (if r.1 then .ok else .nomem)))

/-- Lease an entry for a payload of `A0` bytes and emit its handle, or NOMEM (R182, R210, after their size checks). -/
def leaseAndEmit (s : State) : State :=
  match s.lease with
  | none => s.finish .nomem
  | some i => s.emit i 0#64 s.a0

/-- `POOL.ALLOC` (R182): the size check comes before the stock. -/
def execPoolAlloc (s : State) : Result :=
  .next ((haltCheck s).getD
    (if s.pool.present ∧ s.pool.esz.toNat < s.a0.toNat then s.finish .inval else leaseAndEmit s))

/-- Take a handle back to the pool (R184, R206). -/
def reclaimAndRelease (s : State) : State :=
  match s.reclaim s.handleIn with
  | none => s.raise .handle
  | some i => (s.release i).ok

/-- `POOL.FREE` (R184). -/
def execPoolFree (s : State) : Result := .next ((haltCheck s).getD (reclaimAndRelease s))

/-- `POOL.STAT` (R186): "all 0 when pool.present = 0". -/
def execPoolStat (s : State) : Result :=
  .next ((haltCheck s).getD
    (if s.pool.present then
       s.ok3 (BitVec.ofNat 64 (s.pool.count .free))
         (BitVec.ofNat 64 (s.pool.count .swDriver + s.pool.count .swStack))
         (BitVec.ofNat 64 (s.pool.count .hw))
     else s.ok3 0#64 0#64 0#64))

end Sys2Proof.Machine
end

