-- ==== Sys2Proof/Machine/ClassicRing.lean ====
section
/-! DEFINITION. The Classic Ring Driver operations (spec/43_classic_ring.md). -/

namespace Sys2Proof.Machine

/-! ## `CR.INIT` (R201) -/

/-- Arm Rx slot `slot` of queue `q`: clear the descriptor, lease an entry, install it, hand it over. The lease cannot fail: the
pool was created with an entry for every Rx slot (notes/assumptions/23.md). -/
def armRxSlot (q : Nat) (s : State) (slot : Nat) : State :=
  let d := rxd s.cfg q slot
  let s1 := s.rxInit d
  match s1.lease with
  | none => s1
  | some i =>
    let s2 := (s1.clearEnt i).setQueue q (fun r => { r with rxBuf := r.rxBuf.set slot (some i) })
    (s2.rxSetAddr d (s2.physOf i)).setTag i .hw

/-- Clear Tx slot `slot` of queue `q`. -/
def clearTxSlot (q : Nat) (s : State) (slot : Nat) : State :=
  (s.txInit (txd s.cfg q slot)).setQueue q (fun r => { r with txBuf := r.txBuf.set slot none })

/-- Initialise queue `q`: its indices and queue, the device's next slot (R280), every Rx slot, then every Tx slot. -/
def initQueue (s : State) (q : Nat) : State :=
  let s1 := s.setQueue q (fun r => { r with rxIndex := 0#16, txIndex := 0#16, txClean := 0#16, rxq := [] })
  let s2 := { s1 with nic := { s1.nic with rxNext := s1.nic.rxNext.set q 0#16 } }
  let s3 := (List.range (QS s.cfg)).foldl (armRxSlot q) s2
  (List.range (QS s.cfg)).foldl (clearTxSlot q) s3

/-- `CR.INIT` after its checks: the configured pool must have an entry for every Rx slot. -/
def crInitBody (s : State) : State :=
  if s.cfg.poolN.toNat < QN s.cfg * QS s.cfg then s.finish .nomem
  else
    let r := s.poolCreate s.cfg.poolN.toNat s.cfg.poolEsz.toNat
    if r.1 then
      State.ok { (List.range (QN s.cfg)).foldl initQueue r.2 with inited := true }
    else r.2.finish .nomem

/-- `CR.INIT` (R201). -/
def execCrInit (s : State) : Result := .next ((initCheck .classic s).getD (crInitBody s))

/-! ## Receive -/

/-- `CR.CANRX` (R204): the software queue, else Descriptor-Done of the slot at `rx_index[q]`. -/
def execCrCanrx (q : Nat) (s : State) : Result :=
  .next ((crQueueCheck q s).getD
    (if (s.queue q).rxq ≠ [] then s.ok1 1#64
     else
       let r := s.memRead (rxd s.cfg q (s.queue q).rxIndex.toNat + 8#64) 8
       r.2.ok1 (boolWord (rxDone r.1))))

/-- Drain Rx slot `slot` (R205): its buffer `i` goes to the software queue with the length of `w1`, the leased entry `j` is installed
in its place (address first, status second) and handed over, and the index advances. -/
def drainSlot (q slot i j : Nat) (w1 : Word) (s : State) : State :=
  let d := rxd s.cfg q slot
  let s1 := s.setEnt i (fun e => { e with
    pktLen := rxPktLen w1, hdrLen := 0#64, cap := s.pool.esz.setWidth 64, tag := .swDriver })
  let s2 := s1.setQueue q (fun r => { r with rxq := r.rxq ++ [i] })
  let s3 := (s2.clearEnt j).setQueue q (fun r => { r with rxBuf := r.rxBuf.set slot (some j) })
  let s4 := (s3.rxSetAddr d (s3.physOf j)).rxRstStat d
  (s4.setTag j .hw).setQueue q (fun r => { r with rxIndex := ringNext s.cfg r.rxIndex })

/-- How a batch of `CR.RX` ends: its loop ends, a slot is done without End-of-packet, or a done slot holds no buffer. -/
inductive BatchStop where
  | ended
  | noEop
  | slotEmpty
deriving DecidableEq, Repr

/-- The batch loop of `CR.RX` (R205), at most `fuel` more slots, `n` drained so far. -/
def rxBatch (q : Nat) : Nat → Nat → State → BatchStop × Nat × State
  | 0, n, s => (.ended, n, s)
  | fuel + 1, n, s =>
    let slot := (s.queue q).rxIndex.toNat
    let r := s.memRead (rxd s.cfg q slot + 8#64) 8
    if rxDone r.1 = false then (.ended, n, r.2)
    else if rxEop r.1 = false then (.noEop, n, r.2)
    else match r.2.lease with
      | none => (.ended, n, r.2)
      | some j => match slotAt (r.2.queue q).rxBuf slot with
        | none => (.slotEmpty, n, r.2)
        | some i => rxBatch q fuel (n + 1) (drainSlot q slot i j r.1 r.2)

/-- Pop the front of the software queue and emit it (R205). The queue is never empty here: a batch that drained a slot has filled it
(notes/assumptions/12.md). -/
def popAndEmit (q : Nat) (s : State) : Result :=
  match (s.queue q).rxq with
  | [] => .fault .ringSlotEmpty
  | i :: rest =>
    let s1 := s.setQueue q (fun r => { r with rxq := rest })
    .next (s1.emit i 0#64 (s.entry i).pktLen)

/-- `CR.RX` after its preamble (R205). -/
def crRxBody (q : Nat) (s : State) : Result :=
  if (s.queue q).rxq ≠ [] then popAndEmit q s
  else
    let r := s.memRead (rxd s.cfg q (s.queue q).rxIndex.toNat + 8#64) 8
    if rxDone r.1 = false then .next (r.2.finish .again)
    else
      let b := rxBatch q rxBatchSize 0 r.2
      match b.1 with
      | .slotEmpty => .fault .ringSlotEmpty
      | .noEop => .next (b.2.2.raise .rxNoEop)
      | .ended => if b.2.1 = 0 then .next (b.2.2.raise .rxEmptyBatch) else popAndEmit q b.2.2

/-- `CR.RX` (R205). -/
def execCrRx (q : Nat) (s : State) : Result :=
  match crQueueCheck q s with
  | some t => .next t
  | none => crRxBody q s

/-- `CR.RXRECYCLE` (R206). -/
def execCrRxrecycle (s : State) : Result := .next ((crCheck s).getD (reclaimAndRelease s))

/-! ## Transmit -/

/-- The Tx slot at `tx_index[q]` is free (R207, R208). -/
def State.txRoom (s : State) (q : Nat) : Bool := (slotAt (s.queue q).txBuf (s.queue q).txIndex.toNat).isNone

/-- `CR.CANTX` (R207). -/
def execCrCantx (q : Nat) (s : State) : Result :=
  .next ((crQueueCheck q s).getD (s.ok1 (boolWord (s.txRoom q))))

/-- `CR.TX` of entry `i` after the handle check (R208). -/
def crTxBody (q i : Nat) (s : State) : State :=
  let slot := (s.queue q).txIndex.toNat
  if s.txRoom q = false then s.finish .again
  else
    let s1 := s.txSend (txd s.cfg q slot) (s.physOf i + (s.entry i).hdrLen) (s.entry i).pktLen
    let s2 := s1.setQueue q (fun r => { r with txBuf := r.txBuf.set slot (some i) })
    let s3 := s2.setEnt i (fun e => { e with wire := none, tag := .hw })
    (s3.setQueue q (fun r => { r with txIndex := ringNext s.cfg r.txIndex })).ok

/-- `CR.TX` (R208): the handle is checked before the ring. -/
def execCrTx (q : Nat) (s : State) : Result :=
  .next ((crQueueCheck q s).getD
    (match s.reclaim s.handleIn with
     | none => s.raise .handle
     | some i => crTxBody q i s))

/-- The reclaim loop of `CR.TXRECYCLE` (R209), at most `fuel` more slots. -/
def txReclaim (q : Nat) : Nat → State → State
  | 0, s => s
  | fuel + 1, s =>
    let slot := (s.queue q).txClean.toNat
    match slotAt (s.queue q).txBuf slot with
    | none => s
    | some i =>
      let r := s.memRead (txd s.cfg q slot + 12#64) 4
      if txDone r.1 = false then r.2
      else
        let s1 := (r.2.setQueue q (fun u => { u with txBuf := u.txBuf.set slot none })).release i
        txReclaim q fuel (s1.setQueue q (fun u => { u with txClean := ringNext s.cfg u.txClean }))

/-- `CR.TXRECYCLE` (R209). -/
def execCrTxrecycle (q : Nat) (s : State) : Result :=
  .next ((crQueueCheck q s).getD (txReclaim q (QS s.cfg) s).ok)

/-- `CR.TXALLOC` (R210). -/
def execCrTxalloc (s : State) : Result :=
  .next ((crCheck s).getD (if s.pool.esz.toNat < s.a0.toNat then s.finish .inval else leaseAndEmit s))

end Sys2Proof.Machine
end

