-- ==== Sys2Proof/Machine/Transport.lean ====
section
/-! DEFINITION. The eight calls of the virtual-queue transport (R287 to R293), each with the environment's turn before it (R295). -/

namespace Sys2Proof.Machine

/-- The answer of a begin call (R287, R290). -/
inductive BeginResult where
  | ok (tok : Nat)
  | full
deriving DecidableEq, Repr

/-- The tokens that are in neither list, in rising order (R286: free). -/
def freeTokens (qs : Nat) (busy : List Nat) : List Nat := (List.range qs).filter (fun t => !busy.contains t)

/-- The tokens in use in the rx direction. -/
def Transport.rxBusy (t : Transport) : List Nat := t.rxInflight.map (·.tok) ++ t.rxUsed.map (·.tok)

/-- The tokens in use in the tx direction. -/
def Transport.txBusy (t : Transport) : List Nat := t.txInflight.map (·.tok) ++ t.txUsed.map (·.tok)

/-- The next answer of a begin call: the next one listed, or one as the contract says with a free draw. -/
def State.nextBegin (s : State) : BeginAnswer × State :=
  match s.env.begins with
  | a :: rest => (a, { s with env := { s.env with begins := rest } })
  | [] => (.contract (Config.tokenChoice s.env.drawn), { s with env := { s.env with drawn := s.env.drawn + 1 } })

/-- Which token a begin call gives (R287, R290): the count while the initial fill lasts, else the drawn one of the free tokens;
`Full` where none is free; a faulty transport gives what it gives. -/
def chooseToken (qs count : Nat) (consumed : Bool) (free : List Nat) : BeginAnswer → BeginResult
  | .faultyFull => .full
  | .faulty tok => .ok tok.toNat
  | .contract k =>
    if free = [] then .full
    else if count < qs ∧ consumed = false then .ok count
    else match free[k % free.length]? with
      | some tok => .ok tok
      | none => .full

/-- `T.receive_begin(i)` (R287). -/
def State.receiveBegin (s : State) (i : Nat) : BeginResult × State :=
  let e := s.envTurn
  let t := e.transport
  let a := e.nextBegin
  match chooseToken (QS s.cfg) t.rxCount t.rxConsumed (freeTokens (QS s.cfg) t.rxBusy) a.1 with
  | .full => (.full, a.2)
  | .ok tok =>
    (.ok tok, { a.2 with transport := { t with rxInflight := t.rxInflight ++ [⟨tok, i⟩], rxCount := t.rxCount + 1 } })

/-- `T.transmit_begin(i, nbytes)` (R290). -/
def State.transmitBegin (s : State) (i nbytes : Nat) : BeginResult × State :=
  let e := s.envTurn
  let t := e.transport
  let a := e.nextBegin
  match chooseToken (QS s.cfg) t.txCount t.txConsumed (freeTokens (QS s.cfg) t.txBusy) a.1 with
  | .full => (.full, a.2)
  | .ok tok =>
    (.ok tok, { a.2 with transport := { t with txInflight := t.txInflight ++ [⟨tok, i, nbytes⟩], txCount := t.txCount + 1 } })

/-- `T.poll_receive()` (R288): the front of the completed tokens; it changes nothing. -/
def State.pollReceive (s : State) : Option Nat × State := (s.envTurn.transport.rxUsed.head?.map (·.tok), s.envTurn)

/-- `T.poll_transmit()` (R291). -/
def State.pollTransmit (s : State) : Option Nat × State := (s.envTurn.transport.txUsed.head?.map (·.tok), s.envTurn)

/-- `T.receive_complete(tok, i)` (R289): consumes the completion and gives the lengths recorded with it; `none` where its
precondition fails (notes/assumptions/11.md). -/
def State.receiveComplete (s : State) (tok i : Nat) : Option ((Word × Word) × State) :=
  let e := s.envTurn
  match e.transport.rxUsed with
  | [] => none
  | u :: rest =>
    if u.tok = tok ∧ u.entry = i then
      some ((u.hdrLen, u.pktLen), { e with transport := { e.transport with rxUsed := rest, rxConsumed := true } })
    else none

/-- `T.transmit_complete(tok, i)` (R292): consumes the completion; `none` where its precondition fails. -/
def State.transmitComplete (s : State) (tok i : Nat) : Option State :=
  let e := s.envTurn
  match e.transport.txUsed with
  | [] => none
  | u :: rest =>
    if u.tok = tok ∧ u.entry = i then some { e with transport := { e.transport with txUsed := rest, txConsumed := true } }
    else none

/-- `T.can_send()` (R293): "true exactly when some tx token is free". -/
def State.canSend (s : State) : Bool × State :=
  (!(freeTokens (QS s.cfg) s.envTurn.transport.txBusy).isEmpty, s.envTurn)

/-- `T.fill_header(i)` (R293): writes the drawn header bytes into the first `TOK_HDR_LEN` bytes of entry `i` and returns that length. -/
def State.fillHeader (s : State) (i : Nat) : Word × State :=
  let e := s.envTurn
  let bytes := e.env.headers.headD []
  (e.cfg.tokHdrLen.setWidth 64,
    { e with
      mem := e.mem.storeBytes (e.physOf i) (bytes.take e.cfg.tokHdrLen.toNat)
      env := { e.env with headers := e.env.headers.tail } })

end Sys2Proof.Machine
end

