-- ==== Sys2Proof/Machine/TokenRing.lean ====
section
/-! DEFINITION. The Token Ring Driver operations (spec/44_token_ring.md). -/

namespace Sys2Proof.Machine

/-- `rx_buffers[tok] <- v`. -/
def State.setRxBuffer (s : State) (tok : Nat) (v : Option Nat) : State :=
  { s with token := { s.token with rxBuffers := s.token.rxBuffers.set tok v } }

/-- `tx_buffers[tok] <- v`. -/
def State.setTxBuffer (s : State) (tok : Nat) (v : Option Nat) : State :=
  { s with token := { s.token with txBuffers := s.token.txBuffers.set tok v } }

/-- `free_tx <- l`. -/
def State.setFreeTx (s : State) (l : List Nat) : State := { s with token := { s.token with freeTx := l } }

/-! ## `TR.INIT` (R231) -/

/-- Submit one receive buffer per token of the list, in order; a token other than the expected one halts the block there. The lease
cannot fail: the pool was created with `2 x QS` entries (notes/assumptions/23.md). -/
def submitRx : List Nat → State → State
  | [], s => s
  | t :: ts, s =>
    match s.lease with
    | none => s
    | some i =>
      let r := ((s.clearEnt i).setTag i .hw).receiveBegin i
      if r.1 = .ok t then submitRx ts (r.2.setRxBuffer t (some i)) else r.2.raise .tokenMismatch

/-- Pre-fill one transmit buffer and push it on the free-list. -/
def prefillTx (s : State) (k : Nat) : State :=
  match s.lease with
  | none => s
  | some i =>
    let r := s.fillHeader i
    let s1 := r.2.setEnt i (fun _ => ⟨.swDriver, r.1, 0#64, s.pool.esz.setWidth 64, none⟩)
    (s1.setFreeTx (s1.token.freeTx ++ [i])).setTxBuffer k none

/-- `TR.INIT` after its checks. -/
def trInitBody (s : State) : State :=
  let r := s.poolCreate (2 * QS s.cfg) s.cfg.poolEsz.toNat
  if r.1 = false then r.2.finish .nomem
  else
    let s1 := submitRx (List.range (QS s.cfg)) (r.2.setFreeTx [])
    if s1.halted then s1
    else State.ok { (List.range (QS s.cfg)).foldl prefillTx s1 with inited := true }

/-- `TR.INIT` (R231). -/
def execTrInit (s : State) : Result := .next ((initCheck .token s).getD (trInitBody s))

/-! ## Receive -/

/-- `TR.CANRX` after its preamble (R232). -/
def trCanrxBody (s : State) : State :=
  let r := s.pollReceive
  r.2.ok1 (boolWord r.1.isSome)

/-- `TR.CANRX` (R232). -/
def execTrCanrx (s : State) : Result := .next ((trCheck s).getD (trCanrxBody s))

/-- `TR.RX` after its preamble (R233). -/
def trRxBody (s : State) : Result :=
  let r := s.pollReceive
  match r.1 with
  | none => .next (r.2.finish .again)
  | some tok =>
    if QS s.cfg ≤ tok then .next (r.2.raise .tokenRange)
    else match slotAt r.2.token.rxBuffers tok with
      | none => .next (r.2.raise .rxSlotAbsent)
      | some i => match (r.2.setRxBuffer tok none).receiveComplete tok i with
        | none => .fault .transportContract
        | some c => .next (c.2.emit i c.1.1 c.1.2)

/-- `TR.RX` (R233). -/
def execTrRx (s : State) : Result :=
  match trCheck s with
  | some t => .next t
  | none => trRxBody s

/-- `TR.RXRECYCLE` after its preamble (R234). -/
def trRxrecycleBody (s : State) : State :=
  match s.reclaim s.handleIn with
  | none => s.raise .handle
  | some i =>
    let s1 := s.setEnt i (fun e => { e with hdrLen := 0#64, pktLen := 0#64, wire := none, tag := .hw })
    let r := s1.receiveBegin i
    match r.1 with
    | .full => r.2.raise .transport
    | .ok tok =>
      if QS s.cfg ≤ tok then r.2.raise .tokenRange
      else if (slotAt r.2.token.rxBuffers tok).isSome then r.2.raise .rxSlotOccupied
      else (r.2.setRxBuffer tok (some i)).ok

/-- `TR.RXRECYCLE` (R234). -/
def execTrRxrecycle (s : State) : Result := .next ((trCheck s).getD (trRxrecycleBody s))

/-! ## Transmit -/

/-- `TR.CANTX` after its preamble (R235). -/
def trCantxBody (s : State) : State :=
  let r := s.canSend
  r.2.ok1 (boolWord (!s.token.freeTx.isEmpty && r.1))

/-- `TR.CANTX` (R235). -/
def execTrCantx (s : State) : Result := .next ((trCheck s).getD (trCantxBody s))

/-- `TR.TX` after its preamble (R236): the handle is checked before the transport's room. -/
def trTxBody (s : State) : State :=
  match s.reclaim s.handleIn with
  | none => s.raise .handle
  | some i =>
    let c := s.canSend
    if c.1 = false then c.2.finish .again
    else
      let nbytes := (s.entry i).hdrLen.toNat + (s.entry i).pktLen.toNat
      let s1 := c.2.setEnt i (fun e => { e with wire := none, tag := .hw })
      let r := s1.transmitBegin i nbytes
      match r.1 with
      | .full => r.2.raise .transport
      | .ok tok =>
        if QS s.cfg ≤ tok then r.2.raise .tokenRange
        else if (slotAt r.2.token.txBuffers tok).isSome then r.2.raise .txSlotOccupied
        else (r.2.setTxBuffer tok (some i)).ok

/-- `TR.TX` (R236). -/
def execTrTx (s : State) : Result := .next ((trCheck s).getD (trTxBody s))

/-- The drain loop of `TR.TXRECYCLE` (R237). `fuel` bounds the completions there can be (notes/assumptions/24.md). -/
def txDrain : Nat → State → Result
  | 0, s => .next s.ok
  | fuel + 1, s =>
    let r := s.pollTransmit
    match r.1 with
    | none => .next r.2.ok
    | some tok =>
      if QS s.cfg ≤ tok then .next (r.2.raise .tokenRange)
      else match slotAt r.2.token.txBuffers tok with
        | none => .next (r.2.raise .txSlotAbsent)
        | some i => match (r.2.setTxBuffer tok none).transmitComplete tok i with
          | none => .fault .transportContract
          | some s1 =>
            let s2 := s1.setEnt i (fun e => { e with pktLen := 0#64, tag := .swDriver })
            txDrain fuel (s2.setFreeTx (s2.token.freeTx ++ [i]))

/-- The completions a drain can meet: those reported and those still in flight (no new send is begun meanwhile, R237), and the
poll that finds none. -/
def drainBound (s : State) : Nat := s.transport.txUsed.length + s.transport.txInflight.length + 1

/-- `TR.TXRECYCLE` (R237). -/
def execTrTxrecycle (s : State) : Result :=
  match trCheck s with
  | some t => .next t
  | none => txDrain (drainBound s) s

/-- `TR.TXALLOC` after its preamble (R238): the stock first, then the size, on exact integers. -/
def trTxallocBody (s : State) : State :=
  match s.token.freeTx.getLast? with
  | none => s.finish .nomem
  | some i =>
    if (s.entry i).cap.toNat < (s.entry i).hdrLen.toNat + s.a0.toNat then s.finish .inval
    else (s.setFreeTx s.token.freeTx.dropLast).emit i (s.entry i).hdrLen s.a0

/-- `TR.TXALLOC` (R238). -/
def execTrTxalloc (s : State) : Result := .next ((trCheck s).getD (trTxallocBody s))

end Sys2Proof.Machine
end

