-- ==== Sys2Proof/Machine/Contract.lean ====
section
/-! DEFINITION. The Uniform Driver Contract operations (spec/45_contract.md): dispatch on the construction-time constant `FAMILY`
(R260), and `DEV.INFO` (R269). -/

namespace Sys2Proof.Machine

/-- `DEV.X` without a queue (R260): as `CR.X` on a classic instance, as `TR.X` on a token instance. -/
def byFamily (classic token : State → Result) (s : State) : Result :=
  match haltCheck s with
  | some t => .next t
  | none => match s.cfg.family with
    | .classic => classic s
    | .token => token s

/-- `DEV.X` with a queue (R260). On a token instance the queue check comes after the `INITED` check (R308 items 5 and 6;
notes/assumptions/14.md). -/
def byFamilyQueued (q : Nat) (classic token : State → Result) (s : State) : Result :=
  byFamily classic
    (fun s => match initedCheck s <|> queueCheck q s with
      | some t => .next t
      | none => token s) s

/-- `DEV.INIT` (R261). -/
def execDevInit (s : State) : Result := byFamily execCrInit execTrInit s
/-- `DEV.CANRX` (R262). -/
def execDevCanrx (q : Nat) (s : State) : Result := byFamilyQueued q (execCrCanrx q) execTrCanrx s
/-- `DEV.RX` (R263). -/
def execDevRx (q : Nat) (s : State) : Result := byFamilyQueued q (execCrRx q) execTrRx s
/-- `DEV.RXRECYCLE` (R264). -/
def execDevRxrecycle (s : State) : Result := byFamily execCrRxrecycle execTrRxrecycle s
/-- `DEV.CANTX` (R265). -/
def execDevCantx (q : Nat) (s : State) : Result := byFamilyQueued q (execCrCantx q) execTrCantx s
/-- `DEV.TX` (R266). -/
def execDevTx (q : Nat) (s : State) : Result := byFamilyQueued q (execCrTx q) execTrTx s
/-- `DEV.TXRECYCLE` (R267). -/
def execDevTxrecycle (q : Nat) (s : State) : Result := byFamilyQueued q (execCrTxrecycle q) execTrTxrecycle s
/-- `DEV.TXALLOC` (R268). -/
def execDevTxalloc (s : State) : Result := byFamily execCrTxalloc execTrTxalloc s

/-- The value `DEV.INFO` gives for a selector (R269). -/
def infoValue (p : Params) : Nat → Option Word
  | 0 => some (devTypeTag.setWidth 64)
  | 1 => some (macWord p.mac)
  | 2 => some (p.qs.setWidth 64)
  | 3 => some (p.qs.setWidth 64)
  | 4 => some p.devName
  | _ => none

/-- `DEV.INFO` (R269). -/
def execDevInfo (s : State) : Result :=
  .next ((haltCheck s).getD
    (match infoValue s.cfg s.a0.toNat with
     | some v => s.ok1 v
     | none => s.finish .inval))

end Sys2Proof.Machine
end

