-- ==== Sys2Proof/Machine/RxCodec.lean ====
section
/-! DEFINITION. The receive descriptor codec operations (spec/40_codec_rx.md). Each is the preamble of R140, then its own accesses
to the descriptor at `rxd(q, A0)`. -/

namespace Sys2Proof.Machine

/-- The descriptor the operation works on (R140 step 4). -/
def rxdOf (q : Nat) (s : State) : Addr := rxd s.cfg q s.a0.toNat

/-- An accessor of the first word: `V0 <- f(W0)` (R154). -/
def rxReadW0 (q : Nat) (f : Word → Word) (s : State) : State :=
  (codecCheck q s).getD (let r := s.memRead (rxdOf q s) 8; r.2.ok1 (f r.1))

/-- An accessor of the second word: `V0 <- f(W1)` (R154). -/
def rxReadW1 (q : Nat) (f : Word → Word) (s : State) : State :=
  (codecCheck q s).getD (let r := s.memRead (rxdOf q s + 8#64) 8; r.2.ok1 (f r.1))

/-- `RXD.INIT` (R141). -/
def execRxdInit (q : Nat) (s : State) : Result := .next ((codecCheck q s).getD (s.rxInit (rxdOf q s)).ok)
/-- `RXD.SETADDR` (R142). -/
def execRxdSetaddr (q : Nat) (s : State) : Result := .next ((codecCheck q s).getD (s.rxSetAddr (rxdOf q s) s.a1).ok)
/-- `RXD.RSTSTAT` (R143). -/
def execRxdRststat (q : Nat) (s : State) : Result := .next ((codecCheck q s).getD (s.rxRstStat (rxdOf q s)).ok)
/-- `RXD.DD` (R144). -/
def execRxdDd (q : Nat) (s : State) : Result := .next (rxReadW1 q (fun w => boolWord (rxDone w)) s)
/-- `RXD.EOP` (R145). -/
def execRxdEop (q : Nat) (s : State) : Result := .next (rxReadW1 q (fun w => boolWord (rxEop w)) s)
/-- `RXD.LEN` (R146). -/
def execRxdLen (q : Nat) (s : State) : Result := .next (rxReadW1 q rxPktLen s)
/-- `RXD.RSSTYPE` (R147). -/
def execRxdRsstype (q : Nat) (s : State) : Result := .next (rxReadW0 q rxRssType s)
/-- `RXD.PKTTYPE` (R148). -/
def execRxdPkttype (q : Nat) (s : State) : Result := .next (rxReadW0 q rxPktType s)
/-- `RXD.HDRLEN` (R149). -/
def execRxdHdrlen (q : Nat) (s : State) : Result := .next (rxReadW0 q rxHdrLen s)
/-- `RXD.RSSHASH` (R150). -/
def execRxdRsshash (q : Nat) (s : State) : Result := .next (rxReadW0 q rxRssHash s)
/-- `RXD.XSTATUS` (R151). -/
def execRxdXstatus (q : Nat) (s : State) : Result := .next (rxReadW1 q rxXstatus s)
/-- `RXD.XERROR` (R152). -/
def execRxdXerror (q : Nat) (s : State) : Result := .next (rxReadW1 q rxXerror s)
/-- `RXD.VLAN` (R153). -/
def execRxdVlan (q : Nat) (s : State) : Result := .next (rxReadW1 q rxVlan s)

end Sys2Proof.Machine
end

