-- ==== Sys2Proof/Machine/System.lean ====
section
/-! DEFINITION. `SYS.RESET` (R342), the answer to a reserved encoding (R113), and the actions of the host between operations
(R285, R86, R340). -/

namespace Sys2Proof.Machine

/-- `SYS.RESET` (R342): the reset of R340, "except that CMD keeps the value 0x0000007F just written"; it executes while halted. -/
def execSysReset (s : State) : Result := .next (State.ok { s.resetBlock with cmd := s.cmd })

/-- A reserved encoding (R113, R308 items 2 and 3): UNSUPP, or BADSTATE while halted; nothing else changes. -/
def reservedCommand (s : State) : State := (haltCheck s).getD (s.finish .unsupp)

/-- Entry and offset of a driver pointer (R14, R34). -/
def State.entryAt (s : State) (p : Addr) : Nat × Nat :=
  let off := (p - s.cfg.poolVBase).toNat
  (off / s.pool.esz.toNat, off % s.pool.esz.toNat)

/-- The host may touch the byte at `p` (R86): `SwStack`: "the host, bytes `ptr(i) .. ptr(i) + cap - 1`". -/
def State.hostHolds (s : State) (p : Addr) : Bool :=
  let e := s.entryAt p
  s.pool.present && decide (s.cfg.poolVBase ≤ p) && decide (e.1 < s.pool.n.toNat)
    && decide ((s.entry e.1).tag = .swStack) && decide (e.2 < (s.entry e.1).cap.toNat)

/-- `s` with the word `c` written to `CMD` by the host (R22), so that the next step executes it. -/
def State.issue (s : State) (c : BitVec 32) : State := { s with cmd := c, phase := .issued }

/-- One action of the host (R22, R285). -/
def hostAct (s : State) : HostAction → Result
  | .writeA0 v => .next { s with a0 := v }
  | .writeA1 v => .next { s with a1 := v }
  | .writeA2 v => .next { s with a2 := v }
  | .writeCmd c => .next (s.issue c)
  | .storeByte p b =>
    if s.hostHolds p then
      .next { s with mem := s.mem.put (s.physOf (s.entryAt p).1 + BitVec.ofNat 64 (s.entryAt p).2).toNat b }
    else .fault .hostRights
  | .loadByte p => if s.hostHolds p then .next s else .fault .hostRights
  | .extReset => .next s.resetBlock
  | .pause => .next s

end Sys2Proof.Machine
end

