-- ==== Sys2Proof/Machine/TxCodec.lean ====
section
/-! DEFINITION. The transmit descriptor codec operations (spec/41_codec_tx.md). Each is the preamble of R160, then its own accesses
to the descriptor at `txd(q, A0)`. -/

namespace Sys2Proof.Machine

/-- The descriptor the operation works on (R160 step 4). -/
def txdOf (q : Nat) (s : State) : Addr := txd s.cfg q s.a0.toNat

/-- A field read: `n` bytes at an offset of the descriptor, `V0 <- f` of them. -/
def txReadField (q : Nat) (off : Addr) (n : Nat) (f : Word → Word) (s : State) : State :=
  (codecCheck q s).getD (let r := s.memRead (txdOf q s + off) n; r.2.ok1 (f r.1))

/-- `TXD.INIT` (R161). -/
def execTxdInit (q : Nat) (s : State) : Result := .next ((codecCheck q s).getD (s.txInit (txdOf q s)).ok)
/-- `TXD.SEND` (R162). -/
def execTxdSend (q : Nat) (s : State) : Result := .next ((codecCheck q s).getD (s.txSend (txdOf q s) s.a1 s.a2).ok)
/-- `TXD.POLLDD` (R163). -/
def execTxdPolldd (q : Nat) (s : State) : Result := .next (txReadField q 12#64 4 (fun p => boolWord (txDone p)) s)
/-- `TXD.WAITDD` (R164), one read of the spin: it ends where the read sees Descriptor-Done, and otherwise the operation goes on
executing, to read again at the next step (notes/assumptions/15.md). -/
def execTxdWaitdd (q : Nat) (s : State) : Result :=
  .next ((codecCheck q s).getD
    (let r := s.memRead (txdOf q s + 12#64) 4
     if txDone r.1 then r.2.ok else { r.2 with phase := .running }))
/-- `TXD.GETADDR` (R165). -/
def execTxdGetaddr (q : Nat) (s : State) : Result := .next (txReadField q 0#64 8 id s)
/-- `TXD.GETLEN` (R166). -/
def execTxdGetlen (q : Nat) (s : State) : Result := .next (txReadField q 8#64 2 id s)
/-- `TXD.GETPAYLEN` (R167). -/
def execTxdGetpaylen (q : Nat) (s : State) : Result := .next (txReadField q 12#64 4 txPaylen s)

end Sys2Proof.Machine
end

