-- ==== Sys2Proof/Machine/Dispatch.lean ====
section
/-! DEFINITION. One arm per operation: the meaning of each row of the operation map (R112). -/

namespace Sys2Proof.Machine

def exec (i : Instr) (s : State) : Host.Outcome State Fault Refusal :=
  match i with
  | .rxdInit q => Sys2Proof.Machine.execRxdInit q s
  | .rxdSetaddr q => Sys2Proof.Machine.execRxdSetaddr q s
  | .rxdRststat q => Sys2Proof.Machine.execRxdRststat q s
  | .rxdDd q => Sys2Proof.Machine.execRxdDd q s
  | .rxdEop q => Sys2Proof.Machine.execRxdEop q s
  | .rxdLen q => Sys2Proof.Machine.execRxdLen q s
  | .rxdRsstype q => Sys2Proof.Machine.execRxdRsstype q s
  | .rxdPkttype q => Sys2Proof.Machine.execRxdPkttype q s
  | .rxdHdrlen q => Sys2Proof.Machine.execRxdHdrlen q s
  | .rxdRsshash q => Sys2Proof.Machine.execRxdRsshash q s
  | .rxdXstatus q => Sys2Proof.Machine.execRxdXstatus q s
  | .rxdXerror q => Sys2Proof.Machine.execRxdXerror q s
  | .rxdVlan q => Sys2Proof.Machine.execRxdVlan q s
  | .txdInit q => Sys2Proof.Machine.execTxdInit q s
  | .txdSend q => Sys2Proof.Machine.execTxdSend q s
  | .txdPolldd q => Sys2Proof.Machine.execTxdPolldd q s
  | .txdWaitdd q => Sys2Proof.Machine.execTxdWaitdd q s
  | .txdGetaddr q => Sys2Proof.Machine.execTxdGetaddr q s
  | .txdGetlen q => Sys2Proof.Machine.execTxdGetlen q s
  | .txdGetpaylen q => Sys2Proof.Machine.execTxdGetpaylen q s
  | .poolAllocate => Sys2Proof.Machine.execPoolAllocate s
  | .poolAlloc => Sys2Proof.Machine.execPoolAlloc s
  | .poolFree => Sys2Proof.Machine.execPoolFree s
  | .poolStat => Sys2Proof.Machine.execPoolStat s
  | .crInit => Sys2Proof.Machine.execCrInit s
  | .crCanrx q => Sys2Proof.Machine.execCrCanrx q s
  | .crRx q => Sys2Proof.Machine.execCrRx q s
  | .crRxrecycle => Sys2Proof.Machine.execCrRxrecycle s
  | .crCantx q => Sys2Proof.Machine.execCrCantx q s
  | .crTx q => Sys2Proof.Machine.execCrTx q s
  | .crTxrecycle q => Sys2Proof.Machine.execCrTxrecycle q s
  | .crTxalloc => Sys2Proof.Machine.execCrTxalloc s
  | .trInit => Sys2Proof.Machine.execTrInit s
  | .trCanrx => Sys2Proof.Machine.execTrCanrx s
  | .trRx => Sys2Proof.Machine.execTrRx s
  | .trRxrecycle => Sys2Proof.Machine.execTrRxrecycle s
  | .trCantx => Sys2Proof.Machine.execTrCantx s
  | .trTx => Sys2Proof.Machine.execTrTx s
  | .trTxrecycle => Sys2Proof.Machine.execTrTxrecycle s
  | .trTxalloc => Sys2Proof.Machine.execTrTxalloc s
  | .devInit => Sys2Proof.Machine.execDevInit s
  | .devCanrx q => Sys2Proof.Machine.execDevCanrx q s
  | .devRx q => Sys2Proof.Machine.execDevRx q s
  | .devRxrecycle => Sys2Proof.Machine.execDevRxrecycle s
  | .devCantx q => Sys2Proof.Machine.execDevCantx q s
  | .devTx q => Sys2Proof.Machine.execDevTx q s
  | .devTxrecycle q => Sys2Proof.Machine.execDevTxrecycle q s
  | .devTxalloc => Sys2Proof.Machine.execDevTxalloc s
  | .devInfo => Sys2Proof.Machine.execDevInfo s
  | .sysReset => Sys2Proof.Machine.execSysReset s

end Sys2Proof.Machine
end

