-- ==== Sys2Proof/Machine/Command.lean ====
section
/-! DEFINITION. What one step does: execute the word in `CMD`, or give the environment and the host a turn (R22, R26: no program counter;
the command register takes its place). -/

namespace Sys2Proof.Machine

/-- Execute the operation in `CMD` (R22): decode it and run it, or answer a reserved encoding (R111, R113). -/
def runCommand (s : State) : Host.Outcome State Fault Refusal :=
  match decode s.cmd with
  | .ok i => exec i { s with phase := .idle }
  | .error _ => .next (reservedCommand { s with phase := .idle })

/-- One step between two operations: a turn of the environment, then the host's next action if there is one. -/
def idleStep (s : State) : Host.Outcome State Fault Refusal :=
  match s.host with
  | [] => .next s.envTurn
  | act :: rest => hostAct { s.envTurn with host := rest } act

/-- One step of a spinning `TXD.WAITDD` (R164, R349): it reads once more, or the external reset ends it, after a turn of the
environment. After how many reads the reset comes is the host's list to say: each `pause` before it is one more read
(DESIGN CHOICE, notes/assumptions/15.md). -/
def spinStep (s : State) : Host.Outcome State Fault Refusal :=
  match s.host with
  | .extReset :: rest => .next { s.envTurn with host := rest }.resetBlock
  | .pause :: rest => runCommand { s with host := rest }
  | _ => runCommand s

/-- One step: an issued operation is executed to its end, a spinning one goes on, and with no operation executing the environment and
the host act. An instance the spec refuses at construction is refused (R73). DESIGN CHOICE (notes/assumptions/28.md): the external
reset falls between operations and between the reads of a spinning `TXD.WAITDD`, never inside another operation. -/
def stepOf (s : State) : Host.Outcome State Fault Refusal :=
  if validParams s.cfg = false then .refused .badInstance
  else match s.phase with
    | .idle => idleStep s
    | .issued => runCommand s
    | .running => spinStep s

end Sys2Proof.Machine
end

