-- ==== Sys2Proof/Machine/Step.lean ====
section
/-! DEFINITION. The step of the machine, and how a command word is placed where the next step takes it from. -/

namespace Sys2Proof.Machine

/-- One step (`stepOf`, Sys2Proof/Machine/Command.lean). -/
def step (s : State) : Host.Outcome State Fault Refusal := stepOf s

/-- `s` with the command word of `nbits` bits and value `w` written to `CMD`, so that the next step executes it (R22). -/
def State.withFetchWord (s : State) (nbits w : Nat) : State := s.issue (BitVec.ofNat 32 (w % 2 ^ nbits))

end Sys2Proof.Machine
end

