-- ==== Sys2Proof/Safety.lean ====
section
/-! DEFINITION. What counts as a safe run, and the invariants of the block, in the terms the statements use. -/

namespace Sys2Proof.Machine

/-- A good state (R19, R24, R309): "a halted state is never a good final state". -/
def State.good (s : State) : Bool := !s.halted

/-- No device step is scheduled: the environment's turns are no steps. -/
def State.quiet (s : State) : Prop := s.env.sched = []

/-- Two states have the same block state but for `ST` (R20 (a) to (g)): operand and result registers, `CMD`, latches, indices and
slot arrays, pool, token arrays, configuration. -/
def State.sameBlock (s t : State) : Prop :=
  t.cfg = s.cfg ∧ t.a0 = s.a0 ∧ t.a1 = s.a1 ∧ t.a2 = s.a2 ∧ t.v0 = s.v0 ∧ t.v1 = s.v1 ∧ t.v2 = s.v2 ∧ t.cmd = s.cmd ∧
    t.halted = s.halted ∧ t.hcause = s.hcause ∧ t.inited = s.inited ∧ t.queues = s.queues ∧ t.pool = s.pool ∧ t.token = s.token

/-! ## Invariants -/

/-- `ST` holds a code of R23, `HCAUSE` one of R304 or 0; `HALTED` is set exactly with a cause, and then `ST` is BADSTATE (R24, R310). -/
def State.codesOk (s : State) : Prop :=
  s.st ≤ 5#8 ∧ s.hcause ≤ 13#8 ∧ (s.halted = true ↔ s.hcause ≠ 0#8) ∧ (s.halted = true → s.st = 4#8)

/-- One queue's record has the sizes of the instance: `QS` slots in each array, indices below `QS` (R26), at most 64 pulled packets (R42). -/
def Queue.sizesOk (p : Params) (r : Queue) : Prop :=
  r.rxBuf.length = QS p ∧ r.txBuf.length = QS p ∧ r.rxIndex.toNat < QS p ∧ r.txIndex.toNat < QS p ∧ r.txClean.toNat < QS p ∧
    r.rxq.length ≤ rxBatchSize

/-- Every array has the size the instance gives it: one record per queue, one `dev_rx_next` per queue below `QS` (R280), `QS` token
slots (R44, R45), `pool.n` entry records (R34), none without a pool (R33), no entries of size 0 (R181); and an initialised block has
a pool (R201, R231). -/
def State.sizesOk (s : State) : Prop :=
  s.queues.length = QN s.cfg ∧ (∀ r ∈ s.queues, r.sizesOk s.cfg) ∧
    s.nic.rxNext.length = QN s.cfg ∧ (∀ d ∈ s.nic.rxNext, d.toNat < QS s.cfg) ∧
    s.token.rxBuffers.length = QS s.cfg ∧ s.token.txBuffers.length = QS s.cfg ∧
    s.pool.ent.length = s.pool.n.toNat ∧ (s.pool.present = false → s.pool.n = 0#32) ∧ (s.pool.n ≠ 0#32 → s.pool.esz ≠ 0#32) ∧
    (s.inited = true → s.pool.present = true)

/-- The pool has its place (R76, R294): its `pool.n x pool.esz` bytes meet no ring and wrap in neither space. -/
def State.placedOk (s : State) : Prop := poolRoom s.cfg (s.pool.n.toNat * s.pool.esz.toNat) = true

/-- Before initialisation, and in the other family, every place a driver keeps buffers in is empty (R20 (f), (g), R50). -/
def State.idleOk (s : State) : Prop :=
  ((s.cfg.family = .token ∨ (s.inited = false ∧ s.halted = false)) →
      ∀ r ∈ s.queues, r.rxq = [] ∧ (∀ o ∈ r.rxBuf, o = none) ∧ (∀ o ∈ r.txBuf, o = none)) ∧
    ((s.cfg.family = .classic ∨ (s.inited = false ∧ s.halted = false)) →
      s.token.freeTx = [] ∧ (∀ o ∈ s.token.rxBuffers, o = none) ∧ (∀ o ∈ s.token.txBuffers, o = none))

/-- An entry's recorded handle is `None` exactly when the entry is not with the stack (R35), and is the handle of its metadata. -/
def State.wiresOk (s : State) : Prop :=
  ∀ i < s.pool.ent.length,
    ((s.entry i).tag = .swStack →
      (s.entry i).wire = some (s.handleOf i (s.entry i).hdrLen (s.entry i).pktLen) ∧ (s.entry i).cap = s.pool.esz.setWidth 64) ∧
    ((s.entry i).tag ≠ .swStack → (s.entry i).wire = none)

/-- The buffers a slot array holds. -/
def present (l : List (Option Nat)) : List Nat := l.filterMap id

/-- The entries referenced by a descriptor slot or a transport token (R36: `Hw`). -/
def State.installed (s : State) : List Nat :=
  s.queues.flatMap (fun r => present r.rxBuf ++ present r.txBuf) ++ present s.token.rxBuffers ++ present s.token.txBuffers

/-- The entries the driver holds (R36: `SwDriver`): `rxq` of every queue and `free_tx`. -/
def State.held (s : State) : List Nat := s.queues.flatMap (·.rxq) ++ s.token.freeTx

/-- Ownership (R43, R47) and no aliasing (R38), while not halted: the `Hw` entries are exactly the installed ones, the `SwDriver`
entries exactly the held ones, and no entry occurs in two places; an initialised classic ring has a buffer at every Rx slot (R40). -/
def State.ownOk (s : State) : Prop :=
  s.halted = false →
    (∀ i < s.pool.ent.length, ((s.entry i).tag = .hw ↔ i ∈ s.installed) ∧ ((s.entry i).tag = .swDriver ↔ i ∈ s.held)) ∧
    (∀ i ∈ s.installed ++ s.held, i < s.pool.ent.length) ∧ (s.installed ++ s.held).Nodup ∧
    (s.cfg.family = .classic → s.inited = true → ∀ r ∈ s.queues, ∀ o ∈ r.rxBuf, o ≠ none)

/-- The occupied Tx slots of a queue are the `k` slots from `tx_clean` on, up to but not including `tx_index` (R29). -/
def Queue.txWindowOk (p : Params) (r : Queue) : Prop :=
  ∃ k ≤ QS p, r.txIndex.toNat = (r.txClean.toNat + k) % QS p ∧
    ∀ j < QS p, (slotAt r.txBuf ((r.txClean.toNat + j) % QS p) ≠ none ↔ j < k)

/-- Every queue's Tx window (R29). -/
def State.txWindowsOk (s : State) : Prop := ∀ r ∈ s.queues, r.txWindowOk s.cfg

/-- What every step keeps: the instance may be built, the memory is canonical, codes, sizes, the pool's place, idle places, handles, ownership and Tx
windows are as the rules say. -/
structure State.Inv (s : State) : Prop where
  valid : validParams s.cfg = true
  memory : s.mem.wf = true
  codes : s.codesOk
  sizes : s.sizesOk
  placed : s.placedOk
  idle : s.idleOk
  wires : s.wiresOk
  owns : s.ownOk
  windows : s.txWindowsOk

/-! ## The block and the transport -/

/-- The tokens the transport holds in the rx direction, each with the entry it was submitted with. -/
def Transport.rxHeld (t : Transport) : List (Nat × Nat) :=
  t.rxInflight.map (fun x => (x.tok, x.entry)) ++ t.rxUsed.map (fun x => (x.tok, x.entry))

/-- The tokens the transport holds in the tx direction, each with the entry it was submitted with. -/
def Transport.txHeld (t : Transport) : List (Nat × Nat) :=
  t.txInflight.map (fun x => (x.tok, x.entry)) ++ t.txUsed.map (fun x => (x.tok, x.entry))

/-- While not halted, the block's token arrays and the transport's lists say the same (R44, R45, R286): a token is held by the
transport with an entry exactly when the array holds that entry at that token, and no token is held twice. This is what "the block
guarantees both by construction" (R289) means. -/
def State.tokensOk (s : State) : Prop :=
  s.halted = false →
    (∀ t i, slotAt s.token.rxBuffers t = some i ↔ (t, i) ∈ s.transport.rxHeld) ∧
    (∀ t i, slotAt s.token.txBuffers t = some i ↔ (t, i) ∈ s.transport.txHeld) ∧
    (s.transport.rxHeld.map Prod.fst).Nodup ∧ (s.transport.txHeld.map Prod.fst).Nodup

/-! ## Terms the statements share -/

/-- `s` after the environment's turn: memory, the device, the transport and the schedule may have changed, no register, latch,
index, array or pool record. -/
def State.afterTurn (s : State) : State :=
  { s with
    mem := s.envTurn.mem, nic := s.envTurn.nic, transport := s.envTurn.transport
    env := { s.env with sched := s.env.sched.tail } }

/-- Bad-state with the cause `c` (R310): the three writes of the trap's entry and nothing else. -/
def State.halt (s : State) (c : BitVec 8) : State := { s with hcause := c, halted := true, st := 4#8 }

/-- `t` is `s` with `ST = OK` and, it may be, other memory and other environment agents: every register but `ST`, every latch, index,
array and pool record is kept. -/
def State.onlyMemory (s t : State) : Prop :=
  t = { s with mem := t.mem, nic := t.nic, transport := t.transport, env := t.env, st := 0#8 }

/-- The address `x` is one of the `n` bytes from `a` on. -/
def inBytes (a : Addr) (n : Nat) (x : Nat) : Prop := ∃ k < n, x = (a + BitVec.ofNat 64 k).toNat

/-- Every byte outside `inside` reads as before. -/
def bytesKept (m m' : Memory) (inside : Nat → Prop) : Prop := ∀ x, ¬ inside x → m'.get x = m.get x

/-- The conditions under which a codec operation reaches its own pseudocode (R140, R160). -/
def codecReady (q : Nat) (s : State) : Prop := s.halted = false ∧ q < QN s.cfg ∧ s.a0.toNat < QS s.cfg

/-- What a codec operation answers otherwise (R140, R160 steps 1 to 3). -/
def CodecRefusals (make : Nat → Instr) : Prop := ∀ q s,
  (s.halted = true → exec (make q) s = .next { s with st := 4#8 }) ∧
  (s.halted = false → QN s.cfg ≤ q ∨ QS s.cfg ≤ s.a0.toNat → exec (make q) s = .next { s with st := 3#8 })

/-- A codec operation that reads `n` bytes at an offset of its descriptor and gives `f` of them in `V0`: its refusals, its result and
its frame (no memory write of its own). -/
def CodecRead (make : Nat → Instr) (base : Params → Nat → Nat → Addr) (off : Addr) (n : Nat) (f : Word → Word) : Prop :=
  CodecRefusals make ∧ ∀ q s, codecReady q s →
    exec (make q) s =
      .next { s.afterTurn with v0 := f (s.envTurn.mem.load (base s.cfg q s.a0.toNat + off) n), st := 0#8 } ∧
    (s.quiet → ∀ x, s.afterTurn.mem.get x = s.mem.get x)

/-- The pool of the instance does not wrap in the driver pointer space (R76: "no region wraps past 2^64"). -/
def State.poolFits (s : State) : Prop := s.cfg.poolVBase.toNat + s.pool.n.toNat * s.pool.esz.toNat ≤ 2 ^ 64

/-- Byte `k` of a frame, a header or the contents of a pool: the listed byte, or the byte `old` that was there (log 9). -/
def listedOr (bytes : List Byte) (k : Nat) (old : Byte) : Byte := (bytes[k]?).getD old

/-- Byte `k` of a pool that is about to be created: drawn (R51), the listed byte or the byte already there (log 9). -/
def State.freshByte (s : State) (k : Nat) : Byte :=
  listedOr (s.env.contents.headD []) k (s.mem.get (s.cfg.poolPBase + BitVec.ofNat 64 k).toNat)

/-- Entry `i` is lent to the host and `h` is its handle (R35, R36). -/
def State.lent (s : State) (i : Nat) (h : Handle) : Prop :=
  i < s.pool.ent.length ∧ (s.entry i).tag = .swStack ∧ (s.entry i).wire = some h

/-- The classic ring operations run their own pseudocode on queue `q` (R200). -/
def ringReady (q : Nat) (s : State) : Prop :=
  s.halted = false ∧ s.cfg.family = .classic ∧ s.inited = true ∧ q < QN s.cfg

/-- The classic operations without a queue run their own pseudocode (R200). -/
def classicReady (s : State) : Prop := s.halted = false ∧ s.cfg.family = .classic ∧ s.inited = true

/-- The token ring operations run their own pseudocode (R230); `0 < QN` is the range check of their `DEV.*` forms (R260). -/
def tokenReady (s : State) : Prop := s.halted = false ∧ s.cfg.family = .token ∧ s.inited = true ∧ 0 < QN s.cfg

/-- `t` is `s` with one free entry lent to the host with an empty header and a payload of `size` bytes, its handle in `V0..V2`
(R182, R187, R188): with `PICK` = least index, the least free one. -/
def State.lendsFree (s t : State) (size : Word) : Prop := ∃ i, i < s.pool.ent.length ∧ (s.entry i).tag = .free ∧
  (s.cfg.pick = .least → ∀ j < i, (s.entry j).tag ≠ .free) ∧
  t = { s with
    v0 := s.ptrOf i, v1 := s.ptrOf i, v2 := size, st := 0#8
    pool := { s.pool with
      ent := s.pool.ent.set i ⟨.swStack, 0#64, size, s.pool.esz.setWidth 64, some ⟨s.ptrOf i, s.ptrOf i, size⟩⟩ } }

/-- The second word of a transmit descriptor that `TXD.SEND` has written for the length `len` (R117). -/
def sentWord (len : Word) : Word := (len <<< 14) <<< 32 ||| 0x2B300000#64 ||| (len &&& 0xFFFF#64)

/-- The `j`-th slot from index `i` on, in ring order. -/
def slotFrom (p : Params) (i : BitVec 16) (j : Nat) : Nat := (i.toNat + j) % QS p

/-- `s` with the host's `pause` at the front of its list passed, where there is one (log 15). -/
def State.passPause (s : State) : State :=
  match s.host with
  | .pause :: rest => { s with host := rest }
  | _ => s

/-- `s` with the pulled packet in entry `i` of queue `q` handed to the host and `rest` left waiting (R205, R188). -/
def State.handsFront (s : State) (q i : Nat) (rest : List Nat) : State := { s with
  v0 := s.ptrOf i, v1 := s.ptrOf i, v2 := (s.entry i).pktLen, st := 0#8
  queues := s.queues.set q { s.queue q with rxq := rest }
  pool := { s.pool with
    ent := s.pool.ent.set i
      ⟨.swStack, 0#64, (s.entry i).pktLen, s.pool.esz.setWidth 64, some ⟨s.ptrOf i, s.ptrOf i, (s.entry i).pktLen⟩⟩ } }

/-- The second word of the receive descriptor `j` slots from `rx_index[q]` on. -/
def State.rxStatus (s : State) (q j : Nat) : Word := s.mem.load (rxd s.cfg q (slotFrom s.cfg (s.queue q).rxIndex j) + 8#64) 8

/-- `u` is `s` after `k` slots of queue `q` were drained in ring order from `rx_index` (R205): `old j` is the buffer the `j`-th of them
held, now waiting in `rxq` with the length of its write-back; `new j` is the free entry installed in its place, armed and handed to
the hardware; nothing else differs. -/
def State.drained (s u : State) (q k : Nat) (old new : Nat → Nat) : Prop :=
  let slot := slotFrom s.cfg (s.queue q).rxIndex
  u = { s with queues := u.queues, pool := { s.pool with ent := u.pool.ent }, mem := u.mem } ∧
  u.pool.ent.length = s.pool.ent.length ∧ u.queues.length = s.queues.length ∧ (∀ r ≠ q, u.queue r = s.queue r) ∧
  u.queue q = { s.queue q with
    rxIndex := BitVec.ofNat 16 (slot k), rxBuf := (u.queue q).rxBuf, rxq := (List.range k).map old } ∧
  (∀ j < k, slotAt (s.queue q).rxBuf (slot j) = some (old j) ∧ slotAt (u.queue q).rxBuf (slot j) = some (new j) ∧
    (s.entry (new j)).tag = .free ∧ u.entry (new j) = ⟨.hw, 0#64, 0#64, s.pool.esz.setWidth 64, none⟩ ∧
    u.mem.load (rxd s.cfg q (slot j)) 8 = s.physOf (new j) ∧ u.mem.load (rxd s.cfg q (slot j) + 8#64) 8 = 0#64 ∧
    u.entry (old j) =
      ⟨.swDriver, 0#64, (s.rxStatus q j >>> 32) &&& 0xFFFF#64, s.pool.esz.setWidth 64, (s.entry (old j)).wire⟩) ∧
  (∀ j < QS s.cfg, (∀ m < k, j ≠ slot m) → slotAt (u.queue q).rxBuf j = slotAt (s.queue q).rxBuf j) ∧
  (∀ e, (∀ j < k, e ≠ old j ∧ e ≠ new j) → u.entry e = s.entry e) ∧
  bytesKept s.mem u.mem (fun x => ∃ j < k, inBytes (rxd s.cfg q (slot j)) 16 x)

/-- `u` is `s` after the completions `pre` were drained by `TR.TXRECYCLE` (R237), with `rest` still reported: consumed, slots emptied,
buffers pushed on the free-list in that order with the payload length cleared; nothing else differs. -/
def State.txDrained (s u : State) (pre rest : List TxFlight) : Prop :=
  u = { s with
    token := { s.token with txBuffers := u.token.txBuffers, freeTx := s.token.freeTx ++ pre.map (·.entry) }
    transport := { s.transport with txUsed := rest, txConsumed := s.transport.txConsumed || !pre.isEmpty }
    pool := { s.pool with ent := u.pool.ent } } ∧
  u.token.txBuffers.length = s.token.txBuffers.length ∧ u.pool.ent.length = s.pool.ent.length ∧
  (∀ x ∈ pre, slotAt u.token.txBuffers x.tok = none ∧ u.entry x.entry = { s.entry x.entry with tag := .swDriver, pktLen := 0#64 }) ∧
  (∀ j, (∀ x ∈ pre, j ≠ x.tok) → slotAt u.token.txBuffers j = slotAt s.token.txBuffers j) ∧
  (∀ e, (∀ x ∈ pre, e ≠ x.entry) → u.entry e = s.entry e)

/-- The operation codes that R113 lists as not in the operation map. -/
def reservedOp (op : Nat) : Prop :=
  op = 0x00 ∨ op = 0x0E ∨ op = 0x0F ∨ (0x17 ≤ op ∧ op ≤ 0x1F) ∨ (0x24 ≤ op ∧ op ≤ 0x2F) ∨ (0x38 ≤ op ∧ op ≤ 0x3F) ∨
    (0x48 ≤ op ∧ op ≤ 0x4F) ∨ (0x59 ≤ op ∧ op ≤ 0x7E) ∨ 0x80 ≤ op

/-- The command words of R113: a nonzero bit in 31:16, an `OP` that is not in the operation map, a nonzero `QID` on an operation
without a queue. -/
def reservedWord (c : BitVec 32) : Prop :=
  c.extractLsb' 16 16 ≠ 0#16 ∨ reservedOp (c.extractLsb' 0 8).toNat ∨
  (c.extractLsb' 8 8 ≠ 0#8 ∧ (c.extractLsb' 0 8).toNat ∈ [0x20, 0x21, 0x22, 0x23, 0x30, 0x33, 0x37, 0x40, 0x41, 0x42, 0x43, 0x44,
    0x45, 0x46, 0x47, 0x50, 0x53, 0x57, 0x58, 0x7F])

/-- Every piece of block state and environment-agent state at the value of the table of R50. -/
def State.atReset (s : State) : Prop :=
  s.a0 = 0#64 ∧ s.a1 = 0#64 ∧ s.a2 = 0#64 ∧ s.v0 = 0#64 ∧ s.v1 = 0#64 ∧ s.v2 = 0#64 ∧ s.st = 0#8 ∧ s.halted = false ∧
    s.hcause = 0#8 ∧ s.inited = false ∧ s.queues.length = QN s.cfg ∧
    (∀ r ∈ s.queues, r.rxIndex = 0#16 ∧ r.txIndex = 0#16 ∧ r.txClean = 0#16 ∧ r.rxBuf = List.replicate (QS s.cfg) none ∧
      r.txBuf = List.replicate (QS s.cfg) none ∧ r.rxq = []) ∧
    s.pool.present = false ∧ s.pool.n = 0#32 ∧ s.pool.esz = 0#32 ∧ s.pool.ent = [] ∧
    s.token.rxBuffers = List.replicate (QS s.cfg) none ∧ s.token.txBuffers = List.replicate (QS s.cfg) none ∧
    s.token.freeTx = [] ∧ s.nic.rxNext = List.replicate (QN s.cfg) 0#16 ∧ s.nic.work = none ∧
    s.transport.rxInflight = [] ∧ s.transport.rxUsed = [] ∧ s.transport.rxCount = 0 ∧ s.transport.rxConsumed = false ∧
    s.transport.txInflight = [] ∧ s.transport.txUsed = [] ∧ s.transport.txCount = 0 ∧ s.transport.txConsumed = false

end Sys2Proof.Machine
end

