-- ==== Sys2Proof/Certificates/Slice0/Obligations.lean ====
section
/-! DEFINITION. The statements for the provers: what the operations, the block and the agents around it do, from the numbered rules of
spec/. A statement "about `s.quiet`" is about a state in which no device step is scheduled; every other one is about every schedule.
Terms the statements share stand in Sys2Proof/Safety.lean. -/

section Statements
open Sys2Proof Sys2Proof.Machine

/-! ## Command words (spec/30_encoding.md) -/

/-- R110 to R112: the word written for a well-formed operation decodes to that operation, with its queue at every value of `QID`. -/
def Obligations.DecodeOfEncode : Prop := ∀ i : Instr, i.wellFormed = true → decode (encode i) = .ok i

/-- R110, R111: a word has one meaning: the operation it decodes to is well formed and its word is that word, bit for bit. -/
def Obligations.EncodeOfDecode : Prop :=
  ∀ (c : BitVec 32) (i : Instr), decode c = .ok i → i.wellFormed = true ∧ encode i = c

/-- R113 (with R111, R309): exactly the listed words are reserved, and a reserved word written to `CMD` changes `ST` alone: UNSUPP, or
BADSTATE while halted. -/
def Obligations.ReservedWordsAnswerUnsupported : Prop :=
  (∀ c : BitVec 32, reservedWord c ↔ ∀ i, decode c ≠ .ok i) ∧
  ∀ s : State, validParams s.cfg = true → s.phase = .issued → reservedWord s.cmd →
    step s = .next { s with phase := .idle, st := if s.halted then 4#8 else 5#8 }

/-- R110, R112: words of each family written out from the map, and what they decode to. -/
def Obligations.SampleWordsDecode : Prop :=
  decode 0x00000006#32 = .ok (.rxdLen 0) ∧ decode 0x0000FF0B#32 = .ok (.rxdXstatus 255) ∧
  decode 0x00000011#32 = .ok (.txdSend 0) ∧ decode 0x00000316#32 = .ok (.txdGetpaylen 3) ∧
  decode 0x00000022#32 = .ok .poolFree ∧ decode 0x00000132#32 = .ok (.crRx 1) ∧ decode 0x00000033#32 = .ok .crRxrecycle ∧
  decode 0x00000046#32 = .ok .trTxrecycle ∧ decode 0x00000255#32 = .ok (.devTx 2) ∧ decode 0x00000058#32 = .ok .devInfo ∧
  decode 0x0000007F#32 = .ok .sysReset

/-- R22: when the word in `CMD` decodes to an operation, a step of an issued command is that operation's `exec`, and nothing else but
the end of the waiting; a spinning wait that the external reset does not end is stepped the same way, a `pause` of the host passed
(log 15, the model's choice). -/
def Obligations.StepRunsDecodedOperation : Prop := ∀ (s : State) (i : Instr), validParams s.cfg = true → decode s.cmd = .ok i →
  (s.phase = .issued → step s = exec i { s with phase := .idle }) ∧
  (s.phase = .running → s.host.head? ≠ some .extReset → step s = exec i { s.passPause with phase := .idle })

/-! ## Memory (spec/20_memory.md) -/

/-- R70: little endian. A write of up to 8 bytes reads back truncated to its width, and a 64-bit read is composed of the narrower
reads at the offsets of a transmit descriptor. -/
def Obligations.MemoryIsLittleEndian : Prop :=
  (∀ (m : Memory) (a : Addr) (n : Nat) (v : Word), n ≤ 8 → ((m.store a n v).load a n).toNat = v.toNat % 2 ^ (8 * n)) ∧
  (∀ (m : Memory) (a : Addr) (n : Nat), n ≤ 8 → ∀ k < n,
    (m.load a n).extractLsb' (8 * k) 8 = m.get (a + BitVec.ofNat 64 k).toNat) ∧
  (∀ (m : Memory) (a : Addr), m.load (a + 8#64) 8 =
    m.load (a + 8#64) 2 ||| (m.load (a + 10#64) 1 <<< 16) ||| (m.load (a + 11#64) 1 <<< 24) ||| (m.load (a + 12#64) 4 <<< 32))

/-! ## Receive descriptor codec (spec/40_codec_rx.md) -/

/-- R144 to R153, R140: the ten accessors. Each reads its one word once and writes `V0` and `ST` only: Descriptor-Done, End-of-packet,
the length (bits 47:32 and no others), RSS type, packet type, header length, RSS hash, extended status, errors, VLAN. -/
def Obligations.RxdAccessorsExtractFields : Prop :=
  CodecRead .rxdDd rxd 8#64 8 (fun w => w &&& 1#64) ∧
  CodecRead .rxdEop rxd 8#64 8 (fun w => (w >>> 1) &&& 1#64) ∧
  CodecRead .rxdLen rxd 8#64 8 (fun w => (w >>> 32) &&& 0xFFFF#64) ∧
  CodecRead .rxdRsstype rxd 0#64 8 (fun w => w &&& 0xF#64) ∧
  CodecRead .rxdPkttype rxd 0#64 8 (fun w => (w >>> 4) &&& 0x1FFF#64) ∧
  CodecRead .rxdHdrlen rxd 0#64 8 (fun w => (w >>> 21) &&& 0x3FF#64) ∧
  CodecRead .rxdRsshash rxd 0#64 8 (fun w => w >>> 32) ∧
  CodecRead .rxdXstatus rxd 8#64 8 (fun w => w &&& 0xFFFFF#64) ∧
  CodecRead .rxdXerror rxd 8#64 8 (fun w => (w >>> 20) &&& 0xFFF#64) ∧
  CodecRead .rxdVlan rxd 8#64 8 (fun w => w >>> 48)

/-- R141 to R143, R140: the writing operations. They end with OK and change memory and `ST` only; with no device step in between,
`RXD.INIT` leaves both words 0, `RXD.SETADDR` the address in the first word, `RXD.RSTSTAT` 0 in the second, and every other byte
reads as before. -/
def Obligations.RxdWritesDescriptor : Prop :=
  CodecRefusals .rxdInit ∧ CodecRefusals .rxdSetaddr ∧ CodecRefusals .rxdRststat ∧
  ∀ q s, codecReady q s →
    (∃ t, exec (.rxdInit q) s = .next t ∧ s.onlyMemory t ∧
      (s.quiet → t = { s with mem := t.mem, st := 0#8 } ∧
        t.mem.load (rxd s.cfg q s.a0.toNat) 8 = 0#64 ∧ t.mem.load (rxd s.cfg q s.a0.toNat + 8#64) 8 = 0#64 ∧
        bytesKept s.mem t.mem (inBytes (rxd s.cfg q s.a0.toNat) 16))) ∧
    (∃ t, exec (.rxdSetaddr q) s = .next t ∧ s.onlyMemory t ∧
      (s.quiet → t = { s with mem := t.mem, st := 0#8 } ∧ t.mem.load (rxd s.cfg q s.a0.toNat) 8 = s.a1 ∧
        bytesKept s.mem t.mem (inBytes (rxd s.cfg q s.a0.toNat) 8))) ∧
    (∃ t, exec (.rxdRststat q) s = .next t ∧ s.onlyMemory t ∧
      (s.quiet → t = { s with mem := t.mem, st := 0#8 } ∧ t.mem.load (rxd s.cfg q s.a0.toNat + 8#64) 8 = 0#64 ∧
        bytesKept s.mem t.mem (inBytes (rxd s.cfg q s.a0.toNat + 8#64) 8)))

/-! ## Transmit descriptor codec (spec/41_codec_tx.md) -/

/-- R161, R162, R117, R160: the writing operations. They end with OK and change memory and `ST` only; with no device step in between,
`TXD.INIT` leaves 16 zero bytes and `TXD.SEND` the two words of R117, for every address and every length, and every byte outside the
descriptor reads as before. -/
def Obligations.TxdWritesDescriptor : Prop :=
  CodecRefusals .txdInit ∧ CodecRefusals .txdSend ∧
  ∀ q s, codecReady q s →
    (∃ t, exec (.txdInit q) s = .next t ∧ s.onlyMemory t ∧
      (s.quiet → t = { s with mem := t.mem, st := 0#8 } ∧
        t.mem.load (txd s.cfg q s.a0.toNat) 8 = 0#64 ∧ t.mem.load (txd s.cfg q s.a0.toNat + 8#64) 8 = 0#64 ∧
        bytesKept s.mem t.mem (inBytes (txd s.cfg q s.a0.toNat) 16))) ∧
    (∃ t, exec (.txdSend q) s = .next t ∧ s.onlyMemory t ∧
      (s.quiet → t = { s with mem := t.mem, st := 0#8 } ∧
        t.mem.load (txd s.cfg q s.a0.toNat) 8 = s.a1 ∧ t.mem.load (txd s.cfg q s.a0.toNat + 8#64) 8 = sentWord s.a2 ∧
        bytesKept s.mem t.mem (inBytes (txd s.cfg q s.a0.toNat) 16)))

/-- R163, R165 to R167, R160: the reading operations; each makes one read and writes `V0` and `ST` only. -/
def Obligations.TxdReadsDescriptor : Prop :=
  CodecRead .txdPolldd txd 12#64 4 (fun p => p &&& 1#64) ∧
  CodecRead .txdGetaddr txd 0#64 8 (fun w => w) ∧
  CodecRead .txdGetlen txd 8#64 2 (fun w => w) ∧
  CodecRead .txdGetpaylen txd 12#64 4 (fun p => (p >>> 14) &&& 0x3FFFF#64)

/-- R164 (one read a step: log 15): `TXD.WAITDD` reads the packed word once; where Descriptor-Done is set it ends with OK, else it
goes on executing and changes no state of the block. -/
def Obligations.TxdWaitReadsUntilDone : Prop :=
  CodecRefusals .txdWaitdd ∧ ∀ q s, codecReady q s →
    ((s.envTurn.mem.load (txd s.cfg q s.a0.toNat + 12#64) 4).getLsbD 0 = true →
      exec (.txdWaitdd q) s = .next { s.afterTurn with st := 0#8 }) ∧
    ((s.envTurn.mem.load (txd s.cfg q s.a0.toNat + 12#64) 4).getLsbD 0 = false →
      exec (.txdWaitdd q) s = .next { s.afterTurn with phase := .running }) ∧
    (s.quiet → ∀ x, s.afterTurn.mem.get x = s.mem.get x)

/-- R168 (with R109): after `TXD.SEND`, in any later state in which the slot's `ADDR`, `DATA_LEN` and the bits 31:4 of its packed word
are as it left them (a device may have changed `STA`), the reading operations give the address, the length's low 16 bits and its low
18 bits; for a length of at most 0xFFFF all three give the operands back exactly. -/
def Obligations.TxdRoundTrip : Prop := ∀ (q : Nat) (s : State), codecReady q s → s.quiet →
  ∃ t, exec (.txdSend q) s = .next t ∧
    ∀ u : State, u.cfg = s.cfg → u.halted = false → u.quiet → u.a0 = s.a0 →
      u.mem.load (txd s.cfg q s.a0.toNat) 8 = t.mem.load (txd s.cfg q s.a0.toNat) 8 →
      u.mem.load (txd s.cfg q s.a0.toNat + 8#64) 2 = t.mem.load (txd s.cfg q s.a0.toNat + 8#64) 2 →
      u.mem.load (txd s.cfg q s.a0.toNat + 12#64) 4 >>> 4 = t.mem.load (txd s.cfg q s.a0.toNat + 12#64) 4 >>> 4 →
        exec (.txdGetaddr q) u = .next { u with v0 := s.a1, st := 0#8 } ∧
        exec (.txdGetlen q) u = .next { u with v0 := s.a2 &&& 0xFFFF#64, st := 0#8 } ∧
        exec (.txdGetpaylen q) u = .next { u with v0 := s.a2 &&& 0x3FFFF#64, st := 0#8 } ∧
        (s.a2.toNat ≤ 0xFFFF → s.a2 &&& 0xFFFF#64 = s.a2 ∧ s.a2 &&& 0x3FFFF#64 = s.a2 ∧
          u.mem.load (txd s.cfg q s.a0.toNat + 12#64) 4 &&& 0xFFFFC000#64 = s.a2 <<< 14)

/-! ## Buffer pool (spec/42_pool.md) -/

/-- R181, R180, R51, R76: `POOL.ALLOCATE`: halted; a pool or an initialised block halts with POOL_EXISTS; a request that cannot be represented and
a refusing allocator, which refuses every pool that would meet a ring or wrap (R76, R294; log 6), are NOMEM with nothing changed; else a
pool of `A0` free entries of `A1` bytes, its contents drawn (R51: a listed byte, or the byte already there: log 9), and no other byte
of memory changed, the descriptors of every ring among them. -/
def Obligations.PoolAllocateCreatesPool : Prop := ∀ s : State,
  (s.halted = true → exec .poolAllocate s = .next { s with st := 4#8 }) ∧
  (s.halted = false → s.pool.present = true ∨ s.inited = true → exec .poolAllocate s = .next (s.halt 2#8)) ∧
  (s.halted = false → s.pool.present = false → s.inited = false →
    (2 ^ 32 ≤ s.a0.toNat ∨ 2 ^ 32 ≤ s.a1.toNat ∨ (0 < s.a0.toNat ∧ s.a1.toNat = 0) →
      exec .poolAllocate s = .next { s with st := 2#8 }) ∧
    (s.a0.toNat < 2 ^ 32 → s.a1.toNat < 2 ^ 32 → s.a0.toNat = 0 ∨ 0 < s.a1.toNat → ∀ u : State,
      (poolRoom s.cfg (s.a0.toNat * s.a1.toNat) = false → (s.askBacking (s.a0.toNat * s.a1.toNat)).1 = false) ∧
      (s.askBacking (s.a0.toNat * s.a1.toNat) = (false, u) →
        u = { s with env := u.env } ∧ exec .poolAllocate s = .next { u with st := 2#8 }) ∧
      (s.askBacking (s.a0.toNat * s.a1.toNat) = (true, u) → u = { s with env := u.env } ∧
        ∃ t, exec .poolAllocate s = .next t ∧
          t = { u with pool := t.pool, st := 0#8, mem := t.mem, env := { u.env with contents := s.env.contents.tail } } ∧
          (∀ k < s.a0.toNat * s.a1.toNat, t.mem.get (s.cfg.poolPBase + BitVec.ofNat 64 k).toNat = s.freshByte k) ∧
          bytesKept s.mem t.mem (inBytes s.cfg.poolPBase (s.a0.toNat * s.a1.toNat)) ∧
          (∀ b ∈ s.cfg.rxRingBase ++ s.cfg.txRingBase, ∀ x, b.toNat ≤ x → x < b.toNat + 16 * QS s.cfg → t.mem.get x = s.mem.get x) ∧
          t.pool.present = true ∧ t.pool.n.toNat = s.a0.toNat ∧ t.pool.esz.toNat = s.a1.toNat ∧
          t.pool.ent.length = s.a0.toNat ∧ ∀ e ∈ t.pool.ent, e.tag = .free ∧ e.wire = none)))

/-- R182, R187, R188, R180: `POOL.ALLOC`: a size above the entry size is INVAL, first; no pool or no free entry is NOMEM; else it lends
a free entry and gives its handle. -/
def Obligations.PoolAllocLendsFreeEntry : Prop := ∀ s : State,
  (s.halted = true → exec .poolAlloc s = .next { s with st := 4#8 }) ∧
  (s.halted = false →
    (s.pool.present = true → s.pool.esz.toNat < s.a0.toNat → exec .poolAlloc s = .next { s with st := 3#8 }) ∧
    (s.pool.present = false → exec .poolAlloc s = .next { s with st := 2#8 }) ∧
    (s.pool.present = true → s.a0.toNat ≤ s.pool.esz.toNat →
      ((∀ i < s.pool.ent.length, (s.entry i).tag ≠ .free) → exec .poolAlloc s = .next { s with st := 2#8 }) ∧
      ((∃ i < s.pool.ent.length, (s.entry i).tag = .free) →
        ∃ t, exec .poolAlloc s = .next t ∧ s.lendsFree t s.a0)))

/-- R183, R35: in a state of the invariant, a handle is accepted exactly when it is, bit for bit, the handle of an entry lent to the
host, and then it names that entry. -/
def Obligations.ReclaimAcceptsLentHandles : Prop := ∀ (s : State) (h : Handle) (i : Nat), s.Inv →
  (s.reclaim h = some i ↔ s.pool.present = true ∧ s.lent i h)

/-- R184, R206, R264 on a classic instance (with R183, R185): giving a handle back. The handle of a lent entry returns the entry to the
pool and changes nothing else but `ST`; any other handle halts the block with HANDLE. -/
def Obligations.GiveBackReturnsEntry : Prop := ∀ s : State, s.Inv → s.halted = false →
  ∀ op ∈ [Instr.poolFree, .crRxrecycle, .devRxrecycle],
    (op = .poolFree ∨ (s.cfg.family = .classic ∧ s.inited = true)) →
    (∀ i, s.pool.present = true → s.lent i s.handleIn → exec op s = .next { s with
        st := 0#8
        pool := { s.pool with ent := s.pool.ent.set i { s.entry i with tag := .free, wire := none } } }) ∧
    ((∀ i, ¬ s.lent i s.handleIn) → exec op s = .next (s.halt 1#8))

/-- R183, R184, R206, R208, R234, R236: a handle goes back once: every operation that has taken a handle with OK halts the block with
HANDLE when it is issued again at once with the same operands. -/
def Obligations.HandleDiesWhenGivenBack : Prop := ∀ (q : Nat) (s t : State),
  ∀ op ∈ [Instr.poolFree, .crRxrecycle, .crTx q, .trRxrecycle, .trTx, .devRxrecycle, .devTx q],
    exec op s = .next t → t.st = 0#8 → exec op t = .next (t.halt 1#8)

/-- R38, R182, R210, R238: no entry is leased twice, on an instance of either family: two allocations that succeed, with any operands and
with the pool (and the free-list, on a token instance) as the first left it in between, give different entries. -/
def Obligations.NoDoubleLease : Prop := ∀ (s t u v : State), s.Inv →
  ∀ a ∈ [Instr.poolAlloc, .crTxalloc, .trTxalloc, .devTxalloc], ∀ b ∈ [Instr.poolAlloc, .crTxalloc, .trTxalloc, .devTxalloc],
    exec a s = .next t → t.st = 0#8 → u.pool = t.pool → u.cfg = t.cfg →
    (s.cfg.family = .token → u.token.freeTx = t.token.freeTx) → exec b u = .next v → v.st = 0#8 → v.v0 ≠ t.v0

/-- R186, R37, R180: `POOL.STAT` gives the three counts and changes nothing else; with an entry record per entry they sum to `pool.n`. -/
def Obligations.PoolStatConserves : Prop := ∀ s : State,
  (s.halted = true → exec .poolStat s = .next { s with st := 4#8 }) ∧
  (s.halted = false → s.pool.present = false → exec .poolStat s = .next { s with v0 := 0#64, v1 := 0#64, v2 := 0#64, st := 0#8 }) ∧
  (s.halted = false → s.pool.present = true → s.pool.ent.length = s.pool.n.toNat →
    ∃ t, exec .poolStat s = .next t ∧ t = { s with v0 := t.v0, v1 := t.v1, v2 := t.v2, st := 0#8 } ∧
      t.v0.toNat = s.pool.ent.countP (fun e => e.tag = .free) ∧
      t.v1.toNat = s.pool.ent.countP (fun e => e.tag = .swDriver ∨ e.tag = .swStack) ∧
      t.v2.toNat = s.pool.ent.countP (fun e => e.tag = .hw) ∧
      t.v0.toNat + t.v1.toNat + t.v2.toNat = s.pool.n.toNat)

/-! ## Classic ring (spec/43_classic_ring.md) -/

/-- R201, R261 (with R181): `CR.INIT` and `DEV.INIT` on a classic instance, whatever the device does meanwhile: every Rx slot of every
queue gets a buffer, handed to the hardware, the other entries are free, the Tx slots are empty, the indices 0; with `PICK` = least
index slot `j` of queue `q` gets entry `q x QS + j`. -/
def Obligations.CrInitFillsRings : Prop := ∀ s : State, s.Inv → s.halted = false → s.cfg.family = .classic → s.inited = false →
  s.pool.present = false → QN s.cfg * QS s.cfg ≤ s.cfg.poolN.toNat → s.cfg.poolEsz ≠ 0#32 →
  (s.askBacking (s.cfg.poolN.toNat * s.cfg.poolEsz.toNat)).1 = true →
  ∀ op ∈ [Instr.crInit, .devInit], ∃ t, exec op s = .next t ∧
    t = { s with
      st := 0#8, inited := true, queues := t.queues, pool := t.pool
      mem := t.mem, nic := t.nic, transport := t.transport, env := t.env } ∧
    t.pool.present = true ∧ t.pool.n = s.cfg.poolN ∧ t.pool.esz = s.cfg.poolEsz ∧ t.queues.length = QN s.cfg ∧
    t.pool.count .hw = QN s.cfg * QS s.cfg ∧ t.pool.count .free = s.cfg.poolN.toNat - QN s.cfg * QS s.cfg ∧
    ∀ q < QN s.cfg,
      (t.queue q).rxIndex = 0#16 ∧ (t.queue q).txIndex = 0#16 ∧ (t.queue q).txClean = 0#16 ∧ (t.queue q).rxq = [] ∧
      (t.queue q).rxBuf.length = QS s.cfg ∧ (t.queue q).txBuf = List.replicate (QS s.cfg) none ∧
      ∀ j < QS s.cfg, ∃ i, slotAt (t.queue q).rxBuf j = some i ∧
        t.entry i = ⟨.hw, 0#64, 0#64, s.cfg.poolEsz.setWidth 64, none⟩ ∧ (s.cfg.pick = .least → i = q * QS s.cfg + j)

/-- R201, R261 (with R14, R141, R142, R161): with no device step in between, `CR.INIT` and `DEV.INIT` on a classic instance leave in every
receive descriptor the physical address of the slot's buffer and a zero status word, in every transmit descriptor 16 zero bytes,
`dev_rx_next` 0 for every queue (R280; log 22), and every other byte outside the new pool (R51) as before. -/
def Obligations.CrInitWritesDescriptors : Prop := ∀ (s t : State), s.Inv → s.quiet → s.halted = false → s.inited = false →
  s.cfg.family = .classic → ∀ op ∈ [Instr.crInit, .devInit], exec op s = .next t → t.st = 0#8 →
    (∀ q < QN s.cfg, ∀ j < QS s.cfg, ∃ i, slotAt (t.queue q).rxBuf j = some i ∧
      t.mem.load (rxd s.cfg q j) 8 = phys s.cfg s.cfg.poolEsz i ∧ t.mem.load (rxd s.cfg q j + 8#64) 8 = 0#64 ∧
      t.mem.load (txd s.cfg q j) 8 = 0#64 ∧ t.mem.load (txd s.cfg q j + 8#64) 8 = 0#64) ∧
    (∀ q < QN s.cfg, t.devRxNext q = 0#16) ∧ t.transport = s.transport ∧
    bytesKept s.mem t.mem (fun x => (∃ q < QN s.cfg, ∃ j < QS s.cfg, inBytes (rxd s.cfg q j) 16 x ∨ inBytes (txd s.cfg q j) 16 x) ∨
      inBytes s.cfg.poolPBase (s.cfg.poolN.toNat * s.cfg.poolEsz.toNat) x)

/-- R200, R201, R230, R231, R181, R307, R308: what the init operations answer instead: BADSTATE while halted, UNSUPP on the other family,
ALREADY_INITED, POOL_EXISTS, NOMEM for a pool below the number of Rx slots (classic), for entries of size 0 (R181) and where the
allocator refuses, each before anything of the block is changed. -/
def Obligations.InitRefusals : Prop := ∀ s : State,
  (s.halted = true → ∀ op ∈ [Instr.crInit, .trInit, .devInit], exec op s = .next { s with st := 4#8 }) ∧
  (s.halted = false →
    (s.cfg.family = .token → exec .crInit s = .next { s with st := 5#8 }) ∧
    (s.cfg.family = .classic → exec .trInit s = .next { s with st := 5#8 }) ∧
    ∀ op ∈ [Instr.crInit, .trInit, .devInit],
      (op = .crInit → s.cfg.family = .classic) → (op = .trInit → s.cfg.family = .token) →
      (s.inited = true → exec op s = .next (s.halt 4#8)) ∧
      (s.inited = false → s.pool.present = true → exec op s = .next (s.halt 2#8)) ∧
      (s.inited = false → s.pool.present = false → s.cfg.family = .classic → s.cfg.poolN.toNat < QN s.cfg * QS s.cfg →
        exec op s = .next { s with st := 2#8 }) ∧
      (s.inited = false → s.pool.present = false → validParams s.cfg = true → s.cfg.poolEsz = 0#32 →
        exec op s = .next { s with st := 2#8 }) ∧
      (s.inited = false → s.pool.present = false → s.cfg.poolEsz ≠ 0#32 → ∀ u : State,
        (s.cfg.family = .classic → QN s.cfg * QS s.cfg ≤ s.cfg.poolN.toNat →
          s.askBacking (s.cfg.poolN.toNat * s.cfg.poolEsz.toNat) = (false, u) →
            u = { s with env := u.env } ∧ exec op s = .next { u with st := 2#8 }) ∧
        (s.cfg.family = .token → s.askBacking (2 * QS s.cfg * s.cfg.poolEsz.toNat) = (false, u) →
            u = { s with env := u.env } ∧ exec op s = .next { u with st := 2#8 })))

/-- R204, R207, R262, R265: the predicates of a classic instance. `CANRX` is 1 without a memory access while pulled packets wait, else
the Descriptor-Done bit of the slot at `rx_index`; `CANTX` is 1 exactly when the slot at `tx_index` is empty. Neither changes
anything but `V0` and `ST`. -/
def Obligations.ClassicPredicates : Prop := ∀ (q : Nat) (s : State), ringReady q s →
  (∀ op ∈ [Instr.crCanrx q, .devCanrx q],
    ((s.queue q).rxq ≠ [] → exec op s = .next { s with v0 := 1#64, st := 0#8 }) ∧
    ((s.queue q).rxq = [] → exec op s = .next { s.afterTurn with
        v0 := s.envTurn.mem.load (rxd s.cfg q (s.queue q).rxIndex.toNat + 8#64) 8 &&& 1#64, st := 0#8 }) ∧
    (s.quiet → ∀ x, s.afterTurn.mem.get x = s.mem.get x)) ∧
  (∀ op ∈ [Instr.crCantx q, .devCantx q],
    exec op s = .next { s with
      v0 := if slotAt (s.queue q).txBuf (s.queue q).txIndex.toNat = none then 1#64 else 0#64, st := 0#8 })

/-- R29, R207, R212: in a state of the invariant, `CR.CANTX` says 0 exactly when all `QS` slots of the ring are occupied. -/
def Obligations.NoTxRoomExactlyWhenFull : Prop := ∀ (q : Nat) (s : State), s.Inv → ringReady q s →
  (exec (.crCantx q) s = .next { s with v0 := 0#64, st := 0#8 } ↔ ∀ j < QS s.cfg, slotAt (s.queue q).txBuf j ≠ none)

/-- R205 (first branch), R263, R211: while pulled packets wait, `CR.RX` gives the handle of the oldest, with no memory access, and
changes nothing but that queue, that entry, `V0..V2` and `ST`. -/
def Obligations.CrRxPopsOldest : Prop := ∀ (q i : Nat) (rest : List Nat) (s : State), ringReady q s → (s.queue q).rxq = i :: rest →
  ∀ op ∈ [Instr.crRx q, .devRx q], exec op s = .next (s.handsFront q i rest)

/-- R205, R301, R304, R263: with nothing pulled and no device step scheduled, `CR.RX` at a slot that is not done is AGAIN; at a done slot
without End-of-packet it halts with RX_NO_EOP; at a done slot with no free entry it halts with RX_EMPTY_BATCH; nothing else
changes. -/
def Obligations.CrRxWithoutPacket : Prop := ∀ (q : Nat) (s : State), ringReady q s → s.quiet → (s.queue q).rxq = [] →
  ∀ op ∈ [Instr.crRx q, .devRx q],
    let w := s.mem.load (rxd s.cfg q (s.queue q).rxIndex.toNat + 8#64) 8
    (w.getLsbD 0 = false → exec op s = .next { s with st := 1#8 }) ∧
    (w.getLsbD 0 = true → w.getLsbD 1 = false → exec op s = .next (s.halt 6#8)) ∧
    (w.getLsbD 0 = true → w.getLsbD 1 = true → (∀ i < s.pool.ent.length, (s.entry i).tag ≠ .free) →
      exec op s = .next (s.halt 5#8))

/-- R205, R211, R42, R43, R312, R263: `CR.RX` drains, in ring order from `rx_index`, the `k` slots that are done with End-of-packet: at most
64, at most `QS`, at most as many as there are free entries. Every drained slot holds a fresh buffer, armed, handed to the hardware,
and every packet waits in order with the length of its write-back; then it gives the handle of the first packet. Where a done slot
without End-of-packet comes next it halts with RX_NO_EOP instead: the drained packets stay queued, the drained slots re-armed. Nothing
else changes. -/
def Obligations.CrRxDrainsInOrder : Prop := ∀ (q k : Nat) (s : State), s.Inv → s.quiet → ringReady q s → (s.queue q).rxq = [] →
  1 ≤ k → k ≤ 64 → k ≤ QS s.cfg → k ≤ s.pool.count .free →
  (∀ j < k, (s.rxStatus q j).getLsbD 0 = true ∧ (s.rxStatus q j).getLsbD 1 = true) →
  ∀ op ∈ [Instr.crRx q, .devRx q], ∃ (u : State) (old new : Nat → Nat), s.drained u q k old new ∧
    (k = 64 ∨ k = QS s.cfg ∨ (s.rxStatus q k).getLsbD 0 = false ∨
        ((s.rxStatus q k).getLsbD 1 = true ∧ s.pool.count .free = k) →
      exec op s = .next (u.handsFront q (old 0) ((List.range (k - 1)).map (fun j => old (j + 1))))) ∧
    (k < 64 → k < QS s.cfg → (s.rxStatus q k).getLsbD 0 = true → (s.rxStatus q k).getLsbD 1 = false →
      exec op s = .next (u.halt 6#8))

/-- R208, R266 (with R162, R117, R36): `CR.TX` with the handle of a lent entry and an empty slot at `tx_index`: the slot takes the entry,
the entry goes to the hardware, the index advances, nothing else of the block changes but `ST`; with no device step in between the
descriptor holds the buffer's address past its header and the length, and every other byte reads as before. -/
def Obligations.CrTxHandsOver : Prop := ∀ (q i : Nat) (s : State), s.Inv → ringReady q s → s.lent i s.handleIn →
  slotAt (s.queue q).txBuf (s.queue q).txIndex.toNat = none →
  ∀ op ∈ [Instr.crTx q, .devTx q], ∃ t, exec op s = .next t ∧
    t = { s with
      st := 0#8
      queues := s.queues.set q { s.queue q with
        txBuf := (s.queue q).txBuf.set (s.queue q).txIndex.toNat (some i)
        txIndex := BitVec.ofNat 16 (slotFrom s.cfg (s.queue q).txIndex 1) }
      pool := { s.pool with ent := s.pool.ent.set i { s.entry i with tag := .hw, wire := none } }
      mem := t.mem, nic := t.nic, transport := t.transport, env := t.env } ∧
    (s.quiet → t.nic = s.nic ∧ t.transport = s.transport ∧ t.env = s.env ∧
      t.mem.load (txd s.cfg q (s.queue q).txIndex.toNat) 8 = s.physOf i + (s.entry i).hdrLen ∧
      t.mem.load (txd s.cfg q (s.queue q).txIndex.toNat + 8#64) 8 = sentWord (s.entry i).pktLen ∧
      bytesKept s.mem t.mem (inBytes (txd s.cfg q (s.queue q).txIndex.toNat) 16))

/-- R208, R301, R308 (7), R266: a handle that is not the handle of a lent entry halts `CR.TX` with HANDLE, also when the ring is full;
a good handle at a full ring is AGAIN with no state change. -/
def Obligations.CrTxRefuses : Prop := ∀ (q : Nat) (s : State), s.Inv → ringReady q s →
  ∀ op ∈ [Instr.crTx q, .devTx q],
    ((∀ i, ¬ s.lent i s.handleIn) → exec op s = .next (s.halt 1#8)) ∧
    ((∃ i, s.lent i s.handleIn) → slotAt (s.queue q).txBuf (s.queue q).txIndex.toNat ≠ none →
      exec op s = .next { s with st := 1#8 })

/-- R209, R267: with no device step scheduled, `CR.TXRECYCLE` reclaims in ring order from `tx_clean` the `k` occupied slots that are done
and stops at the first that is empty or not done: those slots are empty, their entries free, `tx_clean` past them; nothing else
changes, no byte of memory is written. `k` may be 0. -/
def Obligations.CrTxrecycleReclaimsDone : Prop := ∀ (q k : Nat) (s : State), s.Inv → s.quiet → ringReady q s →
  let slot := slotFrom s.cfg (s.queue q).txClean
  let done := fun j => (s.mem.load (txd s.cfg q (slot j) + 12#64) 4).getLsbD 0
  k ≤ QS s.cfg → (∀ j < k, slotAt (s.queue q).txBuf (slot j) ≠ none ∧ done j = true) →
  (k = QS s.cfg ∨ slotAt (s.queue q).txBuf (slot k) = none ∨ done k = false) →
  ∀ op ∈ [Instr.crTxrecycle q, .devTxrecycle q], ∃ t, exec op s = .next t ∧
    t = { s with st := 0#8, queues := t.queues, pool := { s.pool with ent := t.pool.ent } } ∧
    t.pool.ent.length = s.pool.ent.length ∧ t.queues.length = s.queues.length ∧ (∀ r ≠ q, t.queue r = s.queue r) ∧
    t.queue q = { s.queue q with txBuf := (t.queue q).txBuf, txClean := BitVec.ofNat 16 (slot k) } ∧
    (∀ j < k, slotAt (t.queue q).txBuf (slot j) = none) ∧
    (∀ j < QS s.cfg, (∀ m < k, j ≠ slot m) → slotAt (t.queue q).txBuf j = slotAt (s.queue q).txBuf j) ∧
    (∀ e, (∃ j < k, slotAt (s.queue q).txBuf (slot j) = some e) → t.entry e = { s.entry e with tag := .free, wire := none }) ∧
    (∀ e, (∀ j < k, slotAt (s.queue q).txBuf (slot j) ≠ some e) → t.entry e = s.entry e)

/-- R210, R268 (with R187, R188): `CR.TXALLOC`: a size above the entry size is INVAL, first; no free entry is NOMEM; else it lends a free
entry and gives its handle. -/
def Obligations.CrTxallocLendsFreeEntry : Prop := ∀ s : State, classicReady s → s.pool.present = true →
  ∀ op ∈ [Instr.crTxalloc, .devTxalloc],
    (s.pool.esz.toNat < s.a0.toNat → exec op s = .next { s with st := 3#8 }) ∧
    (s.a0.toNat ≤ s.pool.esz.toNat →
      ((∀ i < s.pool.ent.length, (s.entry i).tag ≠ .free) → exec op s = .next { s with st := 2#8 }) ∧
      ((∃ i < s.pool.ent.length, (s.entry i).tag = .free) → ∃ t, exec op s = .next t ∧ s.lendsFree t s.a0))

/-! ## Token ring (spec/44_token_ring.md) -/

/-- R231, R239, R287, R261, R293 (with R181): `TR.INIT` and `DEV.INIT` on a token instance with a transport that keeps its contract, whatever
its device does meanwhile: token `j` is given to the `j`-th submission, every token has a buffer, the other `QS` entries are on the
free-list with their header length, no entry is free; with `PICK` = least index the lists are those of the rule's example. With no
device step in between the only bytes that change are the new pool's (R72, R77): the `k`-th buffer of the free-list has the header the
transport drew for it (R293), every other byte of the pool its drawn contents (R51; log 9). -/
def Obligations.TrInitFillsRing : Prop := ∀ s : State, s.Inv → s.halted = false → s.cfg.family = .token → s.inited = false →
  s.pool.present = false → s.cfg.poolEsz ≠ 0#32 → (s.askBacking (2 * QS s.cfg * s.cfg.poolEsz.toNat)).1 = true →
  s.transport = {} → (∀ a ∈ s.env.begins, ∃ k, a = .contract k) →
  ∀ op ∈ [Instr.trInit, .devInit], ∃ t, exec op s = .next t ∧
    t = { s with
      st := 0#8, inited := true, token := t.token, pool := t.pool
      mem := t.mem, nic := t.nic, transport := t.transport, env := t.env } ∧
    t.pool.present = true ∧ t.pool.n.toNat = 2 * QS s.cfg ∧ t.pool.esz = s.cfg.poolEsz ∧ t.transport.rxCount = QS s.cfg ∧
    t.pool.count .hw = QS s.cfg ∧ t.pool.count .swDriver = QS s.cfg ∧ t.pool.count .free = 0 ∧
    t.token.rxBuffers.length = QS s.cfg ∧ t.token.txBuffers = List.replicate (QS s.cfg) none ∧ t.token.freeTx.length = QS s.cfg ∧
    (∀ j < QS s.cfg, ∃ i, slotAt t.token.rxBuffers j = some i ∧ (j, i) ∈ t.transport.rxHeld ∧
      t.entry i = ⟨.hw, 0#64, 0#64, s.cfg.poolEsz.setWidth 64, none⟩) ∧
    (∀ i ∈ t.token.freeTx, t.entry i = ⟨.swDriver, s.cfg.tokHdrLen.setWidth 64, 0#64, s.cfg.poolEsz.setWidth 64, none⟩) ∧
    (s.cfg.pick = .least → t.token.rxBuffers = (List.range (QS s.cfg)).map some ∧
      t.token.freeTx = (List.range (QS s.cfg)).map (· + QS s.cfg)) ∧
    (s.quiet → t.nic = s.nic ∧
      bytesKept s.mem t.mem (inBytes s.cfg.poolPBase (2 * QS s.cfg * s.cfg.poolEsz.toNat)) ∧
      (∀ k i, t.token.freeTx[k]? = some i → ∀ b < s.cfg.poolEsz.toNat,
        t.mem.get (t.physOf i + BitVec.ofNat 64 b).toNat =
          if b < s.cfg.tokHdrLen.toNat then listedOr (s.env.headers.getD k []) b (s.freshByte (i * s.cfg.poolEsz.toNat + b))
          else s.freshByte (i * s.cfg.poolEsz.toNat + b)) ∧
      (∀ j i, slotAt t.token.rxBuffers j = some i → ∀ b < s.cfg.poolEsz.toNat,
        t.mem.get (t.physOf i + BitVec.ofNat 64 b).toNat = s.freshByte (i * s.cfg.poolEsz.toNat + b)))

/-- R231, R357, R304, R312: the token invariant is checked, not assumed, at every submission: when the transport answers submission `t` with
another token or with `Full` (after `t` answers as the contract says), the init operation halts there with TOKEN_MISMATCH: the block
stays uninitialised, the pool is there with `t + 1` entries handed over, the slots of the earlier tokens are filled and no later one,
the free-list is empty. Nothing else of the block changes, and with no device step in between no byte outside the new pool, whose bytes
are its drawn contents (R51; log 9): no header has been written. -/
def Obligations.TrInitChecksTokens : Prop := ∀ (s : State) (before : List BeginAnswer) (a : BeginAnswer) (rest : List BeginAnswer),
  validParams s.cfg = true → s.token.rxBuffers.length = QS s.cfg → s.halted = false → s.cfg.family = .token → s.inited = false →
  s.pool.present = false → s.cfg.poolEsz ≠ 0#32 → (s.askBacking (2 * QS s.cfg * s.cfg.poolEsz.toNat)).1 = true →
  s.env.begins = before ++ a :: rest → before.length < QS s.cfg → (∀ x ∈ before, ∃ k, x = .contract k) →
  (before = [] ∨ s.transport = {}) →
  (a = .faultyFull ∨ ∃ tok : BitVec 16, tok.toNat ≠ before.length ∧ a = .faulty tok) →
  ∀ op ∈ [Instr.trInit, .devInit], ∃ t, exec op s = .next t ∧
    t = { s with
      halted := true, hcause := 7#8, st := 4#8, token := { s.token with rxBuffers := t.token.rxBuffers, freeTx := [] }
      pool := t.pool, mem := t.mem, nic := t.nic, transport := t.transport, env := t.env } ∧
    t.pool.present = true ∧ t.pool.n.toNat = 2 * QS s.cfg ∧ t.pool.esz = s.cfg.poolEsz ∧
    t.pool.count .hw = before.length + 1 ∧ t.pool.count .free = 2 * QS s.cfg - (before.length + 1) ∧
    t.token.rxBuffers.length = QS s.cfg ∧
    (∀ j < before.length, ∃ i, slotAt t.token.rxBuffers j = some i ∧ (t.entry i).tag = .hw) ∧
    (∀ j, before.length ≤ j → slotAt t.token.rxBuffers j = slotAt s.token.rxBuffers j) ∧
    (s.quiet → t.nic = s.nic ∧
      bytesKept s.mem t.mem (inBytes s.cfg.poolPBase (2 * QS s.cfg * s.cfg.poolEsz.toNat)) ∧
      ∀ k < 2 * QS s.cfg * s.cfg.poolEsz.toNat, t.mem.get (s.cfg.poolPBase + BitVec.ofNat 64 k).toNat = s.freshByte k)

/-- R232, R235, R262, R265 (with R288, R293): the predicates of a token instance: a completed receive token that is not consumed; a
buffer on the free-list and a free tx token. Neither changes anything but `V0` and `ST`. -/
def Obligations.TokenPredicates : Prop := ∀ s : State, tokenReady s →
  (∀ op ∈ [Instr.trCanrx, .devCanrx 0],
    exec op s = .next { s.afterTurn with v0 := if s.envTurn.transport.rxUsed = [] then 0#64 else 1#64, st := 0#8 }) ∧
  (∀ op ∈ [Instr.trCantx, .devCantx 0],
    ((s.token.freeTx ≠ [] ∧ ∃ t < QS s.cfg, t ∉ s.envTurn.transport.txHeld.map Prod.fst) →
      exec op s = .next { s.afterTurn with v0 := 1#64, st := 0#8 }) ∧
    (¬ (s.token.freeTx ≠ [] ∧ ∃ t < QS s.cfg, t ∉ s.envTurn.transport.txHeld.map Prod.fst) →
      exec op s = .next { s.afterTurn with v0 := 0#64, st := 0#8 })) ∧
  (s.quiet → ∀ x, s.afterTurn.mem.get x = s.mem.get x)

/-- R233, R263, R240, R289 (with R188): with no device step scheduled, `TR.RX` answers AGAIN when no token is completed; else it takes
the front one: out of range halts with TOKEN_RANGE, an empty slot with RX_SLOT_ABSENT; else the slot is emptied, the completion
consumed and the entry lent to the host with the lengths the transport reports; no byte of memory changes. -/
def Obligations.TrRxDeliversFront : Prop := ∀ s : State, tokenReady s → s.quiet → ∀ op ∈ [Instr.trRx, .devRx 0],
  (s.transport.rxUsed = [] → exec op s = .next { s with st := 1#8 }) ∧
  ∀ (u : RxDone) (rest : List RxDone), s.transport.rxUsed = u :: rest →
    (QS s.cfg ≤ u.tok → exec op s = .next (s.halt 8#8)) ∧
    (u.tok < QS s.cfg → slotAt s.token.rxBuffers u.tok = none → exec op s = .next (s.halt 9#8)) ∧
    (u.tok < QS s.cfg → slotAt s.token.rxBuffers u.tok = some u.entry → exec op s = .next { s with
      v0 := s.ptrOf u.entry, v1 := s.ptrOf u.entry + u.hdrLen, v2 := u.pktLen, st := 0#8
      token := { s.token with rxBuffers := s.token.rxBuffers.set u.tok none }
      transport := { s.transport with rxUsed := rest, rxConsumed := true }
      pool := { s.pool with
        ent := s.pool.ent.set u.entry ⟨.swStack, u.hdrLen, u.pktLen, s.pool.esz.setWidth 64,
          some ⟨s.ptrOf u.entry, s.ptrOf u.entry + u.hdrLen, u.pktLen⟩⟩ } })

/-- R234, R264, R287: with no device step scheduled and a transport that keeps its contract, `TR.RXRECYCLE` with the handle of a lent
entry while some token has no buffer resubmits that entry under such a token (the count of submissions, during the initial fill):
the entry goes to the hardware with empty lengths; nothing else changes, no byte of memory. -/
def Obligations.TrRxrecycleResubmits : Prop := ∀ (s : State) (i k : Nat) (rest : List BeginAnswer), s.Inv → s.tokensOk →
  tokenReady s → s.quiet → s.lent i s.handleIn → s.env.begins = .contract k :: rest →
  (∃ j < QS s.cfg, slotAt s.token.rxBuffers j = none) →
  (s.transport.rxCount < QS s.cfg → s.transport.rxConsumed = false → slotAt s.token.rxBuffers s.transport.rxCount = none) →
  ∀ op ∈ [Instr.trRxrecycle, .devRxrecycle], ∃ tok < QS s.cfg, slotAt s.token.rxBuffers tok = none ∧
    (s.transport.rxCount < QS s.cfg → s.transport.rxConsumed = false → tok = s.transport.rxCount) ∧
    exec op s = .next { s with
      st := 0#8
      token := { s.token with rxBuffers := s.token.rxBuffers.set tok (some i) }
      transport := { s.transport with
        rxInflight := s.transport.rxInflight ++ [⟨tok, i⟩], rxCount := s.transport.rxCount + 1 }
      env := { s.env with begins := rest }
      pool := { s.pool with
        ent := s.pool.ent.set i { s.entry i with tag := .hw, hdrLen := 0#64, pktLen := 0#64, wire := none } } }

/-- R236, R266, R290: with no device step scheduled and a transport that keeps its contract, `TR.TX` with the handle of a lent entry while
some tx token has no buffer begins a send of header and packet under such a token and hands the entry over; nothing else changes,
no byte of memory. -/
def Obligations.TrTxSubmits : Prop := ∀ (s : State) (i k : Nat) (rest : List BeginAnswer), s.Inv → s.tokensOk →
  tokenReady s → s.quiet → s.lent i s.handleIn → s.env.begins = .contract k :: rest →
  (∃ j < QS s.cfg, slotAt s.token.txBuffers j = none) →
  (s.transport.txCount < QS s.cfg → s.transport.txConsumed = false → slotAt s.token.txBuffers s.transport.txCount = none) →
  ∀ op ∈ [Instr.trTx, .devTx 0], ∃ tok < QS s.cfg, slotAt s.token.txBuffers tok = none ∧
    (s.transport.txCount < QS s.cfg → s.transport.txConsumed = false → tok = s.transport.txCount) ∧
    exec op s = .next { s with
      st := 0#8
      token := { s.token with txBuffers := s.token.txBuffers.set tok (some i) }
      transport := { s.transport with
        txInflight := s.transport.txInflight ++ [⟨tok, i, (s.entry i).hdrLen.toNat + (s.entry i).pktLen.toNat⟩]
        txCount := s.transport.txCount + 1 }
      env := { s.env with begins := rest }
      pool := { s.pool with ent := s.pool.ent.set i { s.entry i with tag := .hw, wire := none } } }

/-- R234, R236, R237, R304, R301, R308 (7), R287, R290: what the token operations answer otherwise: a completed tx token out of range or
with an empty slot halts `TR.TXRECYCLE` with TOKEN_RANGE or TX_SLOT_ABSENT; a handle that is not that of a lent entry halts
with HANDLE; a full transport is AGAIN for `TR.TX` and TRANSPORT for `TR.RXRECYCLE`, whether the transport has no free rx token, with
any answer the contract lets it give, or answers `Full` against it; a `Full` after `T.can_send` said yes is TRANSPORT for `TR.TX`; a
faulty transport's token out of range or at an occupied slot halts with TOKEN_RANGE, RX_SLOT_OCCUPIED or TX_SLOT_OCCUPIED; each of
these halts comes after the hand-over and leaves the token arrays as they were. -/
def Obligations.TokenChecksHalt : Prop := ∀ s : State, s.Inv → tokenReady s → s.quiet →
  (∀ (u : TxFlight) (rest : List TxFlight), s.transport.txUsed = u :: rest → ∀ op ∈ [Instr.trTxrecycle, .devTxrecycle 0],
    (QS s.cfg ≤ u.tok → exec op s = .next (s.halt 8#8)) ∧
    (u.tok < QS s.cfg → slotAt s.token.txBuffers u.tok = none → exec op s = .next (s.halt 12#8))) ∧
  (∀ op ∈ [Instr.trRxrecycle, .trTx, .devRxrecycle, .devTx 0], (∀ i, ¬ s.lent i s.handleIn) → exec op s = .next (s.halt 1#8)) ∧
  ∀ i, s.lent i s.handleIn →
    (∀ op ∈ [Instr.trTx, .devTx 0], (∀ t < QS s.cfg, t ∈ s.transport.txHeld.map Prod.fst) → exec op s = .next { s with st := 1#8 }) ∧
    (∀ op ∈ [Instr.trRxrecycle, .devRxrecycle],
      s.env.begins.head? = some .faultyFull ∨ ((∀ tok < QS s.cfg, tok ∈ s.transport.rxHeld.map Prod.fst) ∧
        ∀ a ∈ s.env.begins.head?, ∃ k, a = .contract k) →
      ∃ t, exec op s = .next t ∧ t.halted = true ∧ t.hcause = 13#8 ∧ t.st = 4#8 ∧ (t.entry i).tag = .hw ∧ t.token = s.token ∧
        t.transport = s.transport) ∧
    (∀ op ∈ [Instr.trTx, .devTx 0], s.env.begins.head? = some .faultyFull →
      (∃ j < QS s.cfg, j ∉ s.transport.txHeld.map Prod.fst) →
      ∃ t, exec op s = .next t ∧ t.halted = true ∧ t.hcause = 13#8 ∧ t.st = 4#8 ∧ (t.entry i).tag = .hw ∧ t.token = s.token ∧
        t.transport = s.transport) ∧
    ∀ (tok : BitVec 16) (rest : List BeginAnswer), s.env.begins = .faulty tok :: rest →
      (QS s.cfg ≤ tok.toNat ∨ slotAt s.token.rxBuffers tok.toNat ≠ none → ∀ op ∈ [Instr.trRxrecycle, .devRxrecycle],
        ∃ t, exec op s = .next t ∧ t.halted = true ∧ t.hcause = (if QS s.cfg ≤ tok.toNat then 8#8 else 10#8) ∧ t.st = 4#8 ∧
          (t.entry i).tag = .hw ∧ t.token = s.token) ∧
      ((QS s.cfg ≤ tok.toNat ∨ slotAt s.token.txBuffers tok.toNat ≠ none) → (∃ j < QS s.cfg, j ∉ s.transport.txHeld.map Prod.fst) →
        ∀ op ∈ [Instr.trTx, .devTx 0],
        ∃ t, exec op s = .next t ∧ t.halted = true ∧ t.hcause = (if QS s.cfg ≤ tok.toNat then 8#8 else 11#8) ∧ t.st = 4#8 ∧
          (t.entry i).tag = .hw ∧ t.token = s.token)

/-- R237, R267, R240, R292, R312: with no device step scheduled, `TR.TXRECYCLE` drains the completed tx tokens in the order the transport
reports them: the completions are consumed, the slots emptied, each buffer pushed on the free-list with its payload length cleared
and its header kept. It drains every one and ends with OK where the block and the transport agree (or the reported tokens are those
of the array, each once); at a reported token out of range, or with no buffer, it halts with TOKEN_RANGE or TX_SLOT_ABSENT, the ones
before it drained. Nothing else changes, no byte of memory. -/
def Obligations.TrTxrecycleDrainsAll : Prop := ∀ (s : State) (pre rest : List TxFlight), s.Inv → tokenReady s → s.quiet →
  s.transport.txUsed = pre ++ rest →
  (s.tokensOk ∨ ((∀ x ∈ pre, slotAt s.token.txBuffers x.tok = some x.entry) ∧ (pre.map (·.tok)).Nodup)) →
  ∀ op ∈ [Instr.trTxrecycle, .devTxrecycle 0], ∃ u : State, s.txDrained u pre rest ∧
    (rest = [] → exec op s = .next { u with st := 0#8 }) ∧
    (∀ bad post, rest = bad :: post →
      (QS s.cfg ≤ bad.tok → exec op s = .next (u.halt 8#8)) ∧
      (bad.tok < QS s.cfg → slotAt u.token.txBuffers bad.tok = none → exec op s = .next (u.halt 12#8)))

/-- R238, R268, R188: `TR.TXALLOC`: an empty free-list is NOMEM, first; a header and payload above the capacity, as exact integers, is
INVAL with the list unchanged; else the entry pushed last is lent to the host, its data after the header. -/
def Obligations.TrTxallocPopsTop : Prop := ∀ s : State, tokenReady s → ∀ op ∈ [Instr.trTxalloc, .devTxalloc],
  (s.token.freeTx = [] → exec op s = .next { s with st := 2#8 }) ∧
  ∀ (rest : List Nat) (i : Nat), s.token.freeTx = rest ++ [i] →
    ((s.entry i).cap.toNat < (s.entry i).hdrLen.toNat + s.a0.toNat → exec op s = .next { s with st := 3#8 }) ∧
    ((s.entry i).hdrLen.toNat + s.a0.toNat ≤ (s.entry i).cap.toNat → exec op s = .next { s with
      v0 := s.ptrOf i, v1 := s.ptrOf i + (s.entry i).hdrLen, v2 := s.a0, st := 0#8
      token := { s.token with freeTx := rest }
      pool := { s.pool with
        ent := s.pool.ent.set i ⟨.swStack, (s.entry i).hdrLen, s.a0, s.pool.esz.setWidth 64,
          some ⟨s.ptrOf i, s.ptrOf i + (s.entry i).hdrLen, s.a0⟩⟩ } })

/-! ## Contract (spec/45_contract.md) -/

/-- R260: each `DEV.*` operation is, on a classic instance, the `CR.*` operation of the same name with the same queue; on a token instance
the `TR.*` operation, after INVAL for a queue the instance does not have (where the block is initialised: log 14); and it never ends
with UNSUPP. -/
def Obligations.DevDispatchesOnFamily : Prop := ∀ (q : Nat) (s : State), s.halted = false →
  (s.cfg.family = .classic →
    exec .devInit s = exec .crInit s ∧ exec (.devCanrx q) s = exec (.crCanrx q) s ∧ exec (.devRx q) s = exec (.crRx q) s ∧
    exec .devRxrecycle s = exec .crRxrecycle s ∧ exec (.devCantx q) s = exec (.crCantx q) s ∧
    exec (.devTx q) s = exec (.crTx q) s ∧ exec (.devTxrecycle q) s = exec (.crTxrecycle q) s ∧
    exec .devTxalloc s = exec .crTxalloc s) ∧
  (s.cfg.family = .token →
    exec .devInit s = exec .trInit s ∧ exec .devRxrecycle s = exec .trRxrecycle s ∧ exec .devTxalloc s = exec .trTxalloc s ∧
    (q < QN s.cfg →
      exec (.devCanrx q) s = exec .trCanrx s ∧ exec (.devRx q) s = exec .trRx s ∧ exec (.devCantx q) s = exec .trCantx s ∧
      exec (.devTx q) s = exec .trTx s ∧ exec (.devTxrecycle q) s = exec .trTxrecycle s) ∧
    (QN s.cfg ≤ q → s.inited = true → ∀ op ∈ [Instr.devCanrx q, .devRx q, .devCantx q, .devTx q, .devTxrecycle q],
      exec op s = .next { s with st := 3#8 })) ∧
  (∀ op ∈ [Instr.devInit, .devCanrx q, .devRx q, .devRxrecycle, .devCantx q, .devTx q, .devTxrecycle q, .devTxalloc],
    ∀ t, exec op s = .next t → t.st ≠ 5#8)

/-- R269: `DEV.INFO`: type tag, MAC address with its first octet lowest, the two queue sizes, the name; any other selector is INVAL;
BADSTATE while halted; nothing but `V0` and `ST` changes. -/
def Obligations.DevInfoValues : Prop := ∀ s : State,
  (s.halted = true → exec .devInfo s = .next { s with st := 4#8 }) ∧
  (s.halted = false →
    (s.a0 = 0#64 → exec .devInfo s = .next { s with v0 := 1#64, st := 0#8 }) ∧
    (s.a0 = 1#64 → exec .devInfo s = .next { s with
      v0 := s.cfg.mac.b0.setWidth 64 ||| (s.cfg.mac.b1.setWidth 64 <<< 8) ||| (s.cfg.mac.b2.setWidth 64 <<< 16) |||
        (s.cfg.mac.b3.setWidth 64 <<< 24) ||| (s.cfg.mac.b4.setWidth 64 <<< 32) ||| (s.cfg.mac.b5.setWidth 64 <<< 40)
      st := 0#8 }) ∧
    (s.a0 = 2#64 ∨ s.a0 = 3#64 → exec .devInfo s = .next { s with v0 := BitVec.ofNat 64 (QS s.cfg), st := 0#8 }) ∧
    (s.a0 = 4#64 → exec .devInfo s = .next { s with v0 := s.cfg.devName, st := 0#8 }) ∧
    (5 ≤ s.a0.toNat → exec .devInfo s = .next { s with st := 3#8 }))

/-! ## Result kinds, the trap and the way out (spec/60_exceptions.md, spec/70_reset_and_hazards.md) -/

/-- R300 (with R296): every operation but `TXD.WAITDD` that answers a next state has ended, with one of the six kinds in `ST`. -/
def Obligations.OperationsEndWithAKind : Prop := ∀ (i : Instr) (s t : State), s.phase = .idle → (∀ q, i ≠ .txdWaitdd q) →
  exec i s = .next t → t.phase = .idle ∧ ∃ k : Kind, t.st = k.code

/-- R21: the operand registers, the command word and the configuration are never written by an operation but `SYS.RESET`, and `V0..V2`
only by one that ends with OK. -/
def Obligations.ResultsOnlyWithOk : Prop := ∀ (i : Instr) (s t : State), i ≠ .sysReset → exec i s = .next t →
  t.a0 = s.a0 ∧ t.a1 = s.a1 ∧ t.a2 = s.a2 ∧ t.cmd = s.cmd ∧ t.cfg = s.cfg ∧ t.host = s.host ∧
    (t.st ≠ 0#8 → t.v0 = s.v0 ∧ t.v1 = s.v1 ∧ t.v2 = s.v2)

/-- R300 to R302, R305, R306, R312: a refusal (AGAIN, NOMEM, INVAL, UNSUPP) leaves the block as it was but for `ST`; with no device step
scheduled it leaves memory, device and transport too. -/
def Obligations.RefusalsChangeNothing : Prop := ∀ (i : Instr) (s t : State), exec i s = .next t →
  t.st = 1#8 ∨ t.st = 2#8 ∨ t.st = 3#8 ∨ t.st = 5#8 →
    s.sameBlock t ∧ (s.quiet → t = { s with st := t.st, phase := t.phase, env := t.env })

/-- R310, R304, R24: an operation that halts the block leaves `ST` = 4 and a cause of the table, writes no result register and no
latch but `HALTED`; a block that did not halt has its cause unchanged and does not report Bad-state. -/
def Obligations.TrapEntryWritesCause : Prop := ∀ (i : Instr) (s t : State), s.halted = false → exec i s = .next t →
  (t.halted = true → t.st = 4#8 ∧ 1 ≤ t.hcause.toNat ∧ t.hcause.toNat ≤ 13 ∧ t.v0 = s.v0 ∧ t.v1 = s.v1 ∧ t.v2 = s.v2 ∧
    t.inited = s.inited ∧ t.phase = s.phase) ∧
  (t.halted = false → i ≠ .sysReset → t.hcause = s.hcause ∧ ((∀ q, i ≠ .txdWaitdd q) → t.st ≠ 4#8))

/-- R309, R308 (1, 2): while halted every operation but `SYS.RESET`, and every command word but its word (reserved ones too), ends at once
with `ST` = 4 and no other state change; the environment agents keep running between commands. -/
def Obligations.HaltedBlockIsFrozen : Prop :=
  (∀ (i : Instr) (s : State), s.halted = true → i ≠ .sysReset → exec i s = .next { s with st := 4#8 }) ∧
  (∀ s : State, validParams s.cfg = true → s.halted = true → s.phase = .issued → s.cmd ≠ 0x7F#32 →
    step s = .next { s with phase := .idle, st := 4#8 }) ∧
  (∀ s : State, validParams s.cfg = true → s.halted = true → s.phase = .idle → s.host = [] → step s = .next s.envTurn)

/-- R311: no step clears `HALTED` but the execution of `SYS.RESET` and the external reset; until then the cause, the results, the latches,
the indices, the arrays and the pool stay as they were. -/
def Obligations.OnlyResetLeavesHalt : Prop := ∀ s t : State, s.halted = true → step s = .next t →
  (t.halted = true ∧ t.hcause = s.hcause ∧ t.inited = s.inited ∧ t.v0 = s.v0 ∧ t.v1 = s.v1 ∧ t.v2 = s.v2 ∧ t.queues = s.queues ∧
    t.pool = s.pool ∧ t.token = s.token) ∨
  (s.phase ≠ .idle ∧ s.cmd = 0x7F#32) ∨ (s.phase ≠ .issued ∧ s.host.head? = some .extReset)

/-- R342, R340, R341, R50: `SYS.RESET`, also while halted, the external reset and power-on leave every piece of state at its reset value,
the transport's counts and what it remembers of consumed completions (R287, R290) and the device's step in progress (log 27) among
it; memory and configuration stay as they were, `CMD` holds the word just written or 0. That the external reset is an action of the
host's list and keeps the coming actions is the model's choice (log 1, log 25). -/
def Obligations.ResetGivesResetValues : Prop :=
  (∀ s : State, ∃ t, exec .sysReset s = .next t ∧ t.atReset ∧ t.cmd = s.cmd ∧ t.cfg = s.cfg ∧ t.phase = .idle ∧
    ∀ x, t.mem.get x = s.mem.get x) ∧
  (∀ (s : State) (rest : List HostAction), validParams s.cfg = true → s.phase ≠ .issued → s.quiet → s.host = .extReset :: rest →
    ∃ t, step s = .next t ∧ t.atReset ∧ t.cmd = 0#32 ∧ t.cfg = s.cfg ∧ t.phase = .idle ∧ t.host = rest ∧
      ∀ x, t.mem.get x = s.mem.get x) ∧
  (∀ (p : Params) (m : Memory), (State.powerOn p m).atReset ∧ (State.powerOn p m).cmd = 0#32 ∧ (State.powerOn p m).mem = m)

/-- R306, R307, R114, R308 (4 to 6): the gates of the ring operations: UNSUPP on the other family, then NOT_INITED, then INVAL for a queue
the instance does not have, with nothing else changed. On a token instance a `DEV.*` operation answers NOT_INITED before it looks at
its queue: the model's reading of R308 against the order R260 lists (log 14). -/
def Obligations.RingOperationGates : Prop := ∀ (q : Nat) (s : State), s.halted = false →
  (∀ op ∈ [Instr.crCanrx q, .crRx q, .crRxrecycle, .crCantx q, .crTx q, .crTxrecycle q, .crTxalloc],
    (s.cfg.family = .token → exec op s = .next { s with st := 5#8 }) ∧
    (s.cfg.family = .classic → s.inited = false → exec op s = .next (s.halt 3#8))) ∧
  (∀ op ∈ [Instr.trCanrx, .trRx, .trRxrecycle, .trCantx, .trTx, .trTxrecycle, .trTxalloc],
    (s.cfg.family = .classic → exec op s = .next { s with st := 5#8 }) ∧
    (s.cfg.family = .token → s.inited = false → exec op s = .next (s.halt 3#8))) ∧
  (∀ op ∈ [Instr.devCanrx q, .devRx q, .devRxrecycle, .devCantx q, .devTx q, .devTxrecycle q, .devTxalloc],
    s.inited = false → exec op s = .next (s.halt 3#8)) ∧
  (∀ op ∈ [Instr.crCanrx q, .crRx q, .crCantx q, .crTx q, .crTxrecycle q], s.cfg.family = .classic → s.inited = true →
    QN s.cfg ≤ q → exec op s = .next { s with st := 3#8 })

/-! ## Environment agents (spec/46_device_agents.md) -/

/-- R281, R79, R355: `NIC.RXWB` on an armed slot writes the drawn first word and a second word with Descriptor-Done set and the drawn
fields at their positions, the `min(len, esz)` frame bytes at the address the descriptor held (where they do not reach the descriptor; a
byte that is not listed is the one already there: log 9), no other byte, and moves to the next slot; on a
slot that is not armed, or while the device is in the middle of a step, it is no step. Taken access by access it is the same step (an
access of the block may come in between): its reads write nothing, then come the frame, the first word, the second word, so that after
the third of these accesses the first word is new and the second still old where the frame does not reach the descriptor. -/
def Obligations.NicWritesBackArmedSlot : Prop := ∀ (s : State) (q : Nat) (f : RxFrame),
  let j := (s.devRxNext q).toNat
  let d := rxd s.cfg q j
  let n := min f.len.toNat s.pool.esz.toNat
  (s.nic.work ≠ none ∨ s.rxArmed q j = false → envStep s (.nicRxwb q f) = s ∧ envStep s (.nicRxBegin q f) = s) ∧
  (∀ i, s.nic.work = none → slotAt (s.queue q).rxBuf j = some i → (s.entry i).tag = .hw →
    (s.mem.load (d + 8#64) 8).getLsbD 0 = false →
    (∃ t, envStep s (.nicRxwb q f) = t ∧
      t = { s with mem := t.mem, nic := { rxNext := s.nic.rxNext.set q (BitVec.ofNat 16 ((j + 1) % QS s.cfg)), work := none } } ∧
      t.mem.load d 8 = f.w0 ∧
      t.mem.load (d + 8#64) 8 = (f.vlan.setWidth 64 <<< 48) ||| (f.len.setWidth 64 <<< 32) ||| (f.xerror.setWidth 64 <<< 20) |||
        (f.xstat.setWidth 64 <<< 2) ||| (f.eop.setWidth 64 <<< 1) ||| 1#64 ∧
      (∀ k < n, ¬ inBytes d 16 (s.mem.load d 8 + BitVec.ofNat 64 k).toNat →
        t.mem.get (s.mem.load d 8 + BitVec.ofNat 64 k).toNat =
          listedOr f.bytes k (s.mem.get (s.mem.load d 8 + BitVec.ofNat 64 k).toNat)) ∧
      bytesKept s.mem t.mem (fun x => inBytes d 16 x ∨ inBytes (s.mem.load d 8) n x)) ∧
    (let b := envStep s (.nicRxBegin q f)
     let c := if f.bytes.take n = [] then b else envStep b (.nicWrite f.bytes.length)
     let e := envStep c (.nicWrite 0)
     b = { s with nic := b.nic } ∧ envStep e (.nicWrite 0) = envStep s (.nicRxwb q f) ∧
     ((∀ x, inBytes (s.mem.load d 8) n x → ¬ inBytes d 16 x) →
       c.mem.load d 8 = s.mem.load d 8 ∧ c.mem.load (d + 8#64) 8 = s.mem.load (d + 8#64) 8 ∧
       e.mem.load d 8 = f.w0 ∧ e.mem.load (d + 8#64) 8 = s.mem.load (d + 8#64) 8)))

/-- R283, R79: `NIC.TXDONE` on a handed-over slot that is not reported sets Descriptor-Done and the three drawn bits of the status nibble
and keeps bits 31:4 of the packed word; it changes no other byte; on any other slot, or while the device is in the middle of a step,
it is no step. Its read may come before accesses of the block that leave the memory `m`, and its write after them. -/
def Obligations.NicReportsSentSlot : Prop := ∀ (s : State) (q j : Nat) (sta : BitVec 3),
  let a := txd s.cfg q j + 12#64
  (s.nic.work ≠ none ∨ s.txPending q j = false →
    envStep s (.nicTxdone q j sta) = s ∧ envStep s (.nicTxBegin q j sta) = s) ∧
  (∀ i, s.nic.work = none → slotAt (s.queue q).txBuf j = some i → (s.entry i).tag = .hw → (s.mem.load a 4).getLsbD 0 = false →
    let b := envStep s (.nicTxBegin q j sta)
    b = { s with nic := b.nic } ∧ envStep s (.nicTxdone q j sta) = envStep b (.nicWrite 0) ∧
    ∀ (m : Memory) (k : Nat), ∃ t, envStep { b with mem := m } (.nicWrite k) = t ∧ t = { s with mem := t.mem } ∧
      (t.mem.load a 4) &&& 0xF#64 = (sta.setWidth 64 <<< 1) ||| 1#64 ∧
      t.mem.load a 4 >>> 4 = s.mem.load a 4 >>> 4 ∧ bytesKept m t.mem (inBytes a 4))

/-- R22, R285, R86, R14, R34, R78: between operations the host writes an operand register, or `CMD`, which issues an operation, or a byte of
an entry it holds. The model's choices in it: the host's actions are a list and one is taken per step (log 1), one of them is to let
the step pass (log 15), a byte it does not hold is a fault, and so is a read of one (log 13), and byte `k` under `ptr(i)` is the byte at
`phys(i) + k` (log 17). -/
def Obligations.HostActsBetweenOperations : Prop := ∀ (s : State) (act : HostAction) (rest : List HostAction),
  validParams s.cfg = true → s.phase = .idle → s.quiet → s.host = act :: rest →
  (∀ v, act = .writeA0 v → step s = .next { s with a0 := v, host := rest }) ∧
  (∀ v, act = .writeA1 v → step s = .next { s with a1 := v, host := rest }) ∧
  (∀ v, act = .writeA2 v → step s = .next { s with a2 := v, host := rest }) ∧
  (∀ c, act = .writeCmd c → step s = .next { s with cmd := c, phase := .issued, host := rest }) ∧
  (act = .pause → step s = .next { s with host := rest }) ∧
  (∀ p b, act = .storeByte p b → s.hostHolds p = false → step s = .fault .hostRights) ∧
  (∀ p, act = .loadByte p → step s = if s.hostHolds p then .next { s with host := rest } else .fault .hostRights) ∧
  (∀ (i k : Nat) (b : Byte), s.poolFits → s.pool.present = true → i < s.pool.n.toNat → (s.entry i).tag = .swStack →
    k < s.pool.esz.toNat → (s.entry i).cap = s.pool.esz.setWidth 64 → act = .storeByte (s.ptrOf i + BitVec.ofNat 64 k) b →
    step s = .next { s with mem := s.mem.put (s.physOf i + BitVec.ofNat 64 k).toNat b, host := rest })

/-- R295, R289: a device step of the transport moves one token from in flight to the back of the completed ones, a receive token with the
header length of the instance and the drawn packet length, where it fits the entry. It writes the header and the frame into the entry
(a byte that is not listed is the one already there: log 9) and no other byte. -/
def Obligations.TransportDeviceCompletes : Prop := ∀ (s : State) (k : Nat) (len : Word) (bytes : List Byte),
  (s.transport.rxInflight.length ≤ k → envStep s (.vqDevrx k len bytes) = s) ∧
  (s.transport.txInflight.length ≤ k → envStep s (.vqDevtx k) = s) ∧
  (∀ x, s.transport.rxInflight[k]? = some x → s.cfg.tokHdrLen.toNat + len.toNat ≤ s.pool.esz.toNat →
    ∃ t, envStep s (.vqDevrx k len bytes) = t ∧ t = { s with mem := t.mem, transport := { s.transport with
        rxInflight := s.transport.rxInflight.eraseIdx k
        rxUsed := s.transport.rxUsed ++ [⟨x.tok, x.entry, s.cfg.tokHdrLen.setWidth 64, len⟩] } } ∧
      (∀ b < s.cfg.tokHdrLen.toNat + len.toNat, t.mem.get (s.physOf x.entry + BitVec.ofNat 64 b).toNat =
        listedOr bytes b (s.mem.get (s.physOf x.entry + BitVec.ofNat 64 b).toNat)) ∧
      bytesKept s.mem t.mem (inBytes (s.physOf x.entry) (s.cfg.tokHdrLen.toNat + len.toNat))) ∧
  (∀ x, s.transport.txInflight[k]? = some x → envStep s (.vqDevtx k) = { s with transport := { s.transport with
      txInflight := s.transport.txInflight.eraseIdx k, txUsed := s.transport.txUsed ++ [x] } })

/-! ## Invariants -/

/-- The model's memory form (log 4): every step keeps the canonical form of memory. -/
def Obligations.StepKeepsMemoryCanonical : Prop := ∀ s t : State, s.mem.wf = true → step s = .next t → t.mem.wf = true

/-- R23, R24, R26, R34, R42, R280, R304: every step keeps the ranges of the rules: result codes and causes, the halt latch with its cause,
indices below `QS`, the size of every array, at most 64 pulled packets. -/
def Obligations.StepKeepsCodesAndSizes : Prop := ∀ s t : State, s.codesOk → s.sizesOk → step s = .next t → t.codesOk ∧ t.sizesOk

/-- R29, R35, R36, R38, R40, R43, R47 with the ranges above: every step keeps the whole invariant: ownership tags agree with the places
that hold the entries, no entry is in two places, a recorded handle is the handle of its entry, the occupied Tx slots are the window
from `tx_clean` to `tx_index`. -/
def Obligations.StepKeepsInvariant : Prop := ∀ s t : State, s.Inv → step s = .next t → t.Inv

/-- R44, R45, R286, R289: every step keeps the agreement of the block's token arrays with the transport's lists, also with a faulty
transport (it halts the block first). -/
def Obligations.StepKeepsTokenAgreement : Prop := ∀ s t : State, s.Inv → s.tokensOk → step s = .next t → t.tokensOk

/-- R289, R205, R40, R320 ("Stuck: none"): in a state of the invariants a step never stops: not for a broken transport contract, not for an
empty receive slot, not for a refused instance; the one fault left is the host's (log 13). -/
def Obligations.BlockNeverStops : Prop := ∀ s : State, s.Inv → s.tokensOk →
  (∃ t, step s = .next t) ∨ (step s = .fault .hostRights ∧ s.phase = .idle ∧ s.host ≠ [])

/-- R50: the state after power-on of every instance that may be built, with any canonical memory, meets the invariants. -/
def Obligations.PowerOnMeetsInvariants : Prop :=
  (∀ (p : Params) (m : Memory), validParams p = true → m.wf = true → (State.powerOn p m).Inv ∧ (State.powerOn p m).tokensOk) ∧
  State.reset.Inv ∧ State.reset.tokensOk

end Statements
end

