-- ==== Sys2Proof/Laws/Decode.lean ====
section
/-! SUPPORT. What the operation map says of the operations it gives. -/

namespace Sys2Proof

/-- A code of an operation with a queue: the operation carries the queue it is made with and has that code. -/
theorem opForm_queued {n : Nat} {make : Nat → Instr} (h : opForm n = some (.queued make)) (q : Nat) :
    (make q).queue? = some q ∧ (make q).opcode.toNat = n := by
  unfold opForm at h
  split at h <;> simp_all <;> subst h <;> simp [Instr.queue?, Instr.opcode]

/-- A code of an operation without a queue. -/
theorem opForm_plain {n : Nat} {i : Instr} (h : opForm n = some (.plain i)) : i.queue? = none ∧ i.opcode.toNat = n := by
  unfold opForm at h
  split at h <;> simp_all <;> subst h <;> simp [Instr.queue?, Instr.opcode]

/-- The map gives every operation back from its code. -/
theorem opForm_opcode (i : Instr) :
    opForm i.opcode.toNat = some (.plain i) ∨
      ∃ make q, opForm i.opcode.toNat = some (.queued make) ∧ i.queue? = some q ∧ make q = i := by
  cases i <;> first | exact Or.inl rfl | exact Or.inr ⟨_, _, rfl, rfl, rfl⟩

end Sys2Proof
end

