-- ==== Sys2Proof/Laws/Memory.lean ====
section
/-! SUPPORT. Laws of DMA memory: a byte read after a write (for every memory, canonical or not), what wide writes and byte runs leave
at each address, the bits of a wide read, and that every memory operation keeps the canonical form. -/

namespace Sys2Proof.Machine

/-! ## One byte -/

theorem Memory.get_insertCell_self (a : Nat) (v : Byte) (m : Memory) (h : ∀ c ∈ m, c.1 ≠ a) :
    (Memory.insertCell a v m).get a = v := by
  induction m with
  | nil => simp [Memory.insertCell, Memory.get]
  | cons c m ih =>
    have hc : a ≠ c.1 := fun e => h c (by simp) e.symm
    unfold Memory.insertCell
    split
    · simp [Memory.get]
    · simp [Memory.get, hc, ih (fun d hd => h d (by simp [hd]))]

theorem Memory.get_insertCell_ne {a x : Nat} (v : Byte) (m : Memory) (h : x ≠ a) :
    (Memory.insertCell a v m).get x = m.get x := by
  induction m with
  | nil => simp [Memory.insertCell, Memory.get, h]
  | cons c m ih =>
    unfold Memory.insertCell
    split
    · simp [Memory.get, h]
    · simp [Memory.get, ih]

theorem Memory.get_filter_self (a : Nat) (m : Memory) :
    Memory.get (m.filter (fun c => c.1 != a)) a = Memory.unlisted := by
  induction m with
  | nil => rfl
  | cons c m ih =>
    by_cases h : c.1 = a
    · simp [List.filter, h, ih]
    · have h' : (c.1 != a) = true := by simpa using h
      simp [List.filter, h', Memory.get, Ne.symm h, ih]

theorem Memory.get_filter_ne {a x : Nat} (m : Memory) (h : x ≠ a) :
    Memory.get (m.filter (fun c => c.1 != a)) x = m.get x := by
  induction m with
  | nil => rfl
  | cons c m ih =>
    by_cases hc : c.1 = a
    · have : x ≠ c.1 := by rw [hc]; exact h
      simp [List.filter, hc, Memory.get, ih, h]
    · have h' : (c.1 != a) = true := by simpa using hc
      simp [List.filter, h', Memory.get, ih]

/-- Reading a byte just written. -/
@[simp] theorem Memory.get_put_self (m : Memory) (a : Nat) (v : Byte) : (m.put a v).get a = v := by
  unfold Memory.put
  split
  · next h => rw [Memory.get_filter_self, h]
  · exact Memory.get_insertCell_self a v _ (by simp)

/-- Writing a byte leaves every other byte alone. -/
theorem Memory.get_put_ne {a x : Nat} (m : Memory) (v : Byte) (h : x ≠ a) : (m.put a v).get x = m.get x := by
  unfold Memory.put
  split
  · exact Memory.get_filter_ne m h
  · rw [Memory.get_insertCell_ne v _ h, Memory.get_filter_ne m h]

/-! ## The canonical form -/

theorem Memory.wfFrom_mono {lo lo' : Nat} (h : lo' ≤ lo) {m : Memory} (hm : Memory.wfFrom lo m = true) :
    Memory.wfFrom lo' m = true := by
  cases m with
  | nil => rfl
  | cons c m =>
    obtain ⟨a, v⟩ := c
    simp only [Memory.wfFrom, Bool.and_eq_true, decide_eq_true_eq] at hm ⊢
    exact ⟨⟨⟨by omega, hm.1.1.2⟩, hm.1.2⟩, hm.2⟩

theorem Memory.wfFrom_filter (a : Nat) {lo : Nat} {m : Memory} (hm : Memory.wfFrom lo m = true) :
    Memory.wfFrom lo (m.filter (fun c => c.1 != a)) = true := by
  induction m generalizing lo with
  | nil => rfl
  | cons c m ih =>
    obtain ⟨b, w⟩ := c
    simp only [Memory.wfFrom, Bool.and_eq_true, decide_eq_true_eq] at hm
    by_cases h : b = a
    · simpa [List.filter, h] using Memory.wfFrom_mono (by omega) (ih hm.2)
    · have h' : (b != a) = true := by simpa using h
      simp only [List.filter, h', Memory.wfFrom, Bool.and_eq_true, decide_eq_true_eq]
      exact ⟨hm.1, ih hm.2⟩

theorem Memory.wfFrom_insertCell {a lo : Nat} {v : Byte} (hlo : lo ≤ a) (ha : a < 2 ^ 64) (hv : v ≠ Memory.unlisted)
    {m : Memory} (hn : ∀ c ∈ m, c.1 ≠ a) (hm : Memory.wfFrom lo m = true) :
    Memory.wfFrom lo (Memory.insertCell a v m) = true := by
  induction m generalizing lo with
  | nil => simp [Memory.insertCell, Memory.wfFrom, hlo, hv]; omega
  | cons c m ih =>
    obtain ⟨b, w⟩ := c
    have hb : b ≠ a := hn (b, w) (by simp)
    simp only [Memory.wfFrom, Bool.and_eq_true, decide_eq_true_eq] at hm
    unfold Memory.insertCell
    split
    · next h =>
      simp only [Memory.wfFrom, Bool.and_eq_true, decide_eq_true_eq]
      exact ⟨⟨⟨hlo, ha⟩, hv⟩, ⟨⟨by simpa using h, hm.1.1.2⟩, hm.1.2⟩, hm.2⟩
    · next h =>
      simp only [Memory.wfFrom, Bool.and_eq_true, decide_eq_true_eq]
      refine ⟨hm.1, ih ?_ (fun d hd => hn d (by simp [hd])) hm.2⟩
      simp at h; omega

/-- Writing a byte keeps the canonical form. -/
theorem Memory.wf_put {m : Memory} (hm : m.wf = true) {a : Nat} (ha : a < 2 ^ 64) (v : Byte) : (m.put a v).wf = true := by
  unfold Memory.put
  split
  · exact Memory.wfFrom_filter a hm
  · next h => exact Memory.wfFrom_insertCell (by omega) ha h (by simp) (Memory.wfFrom_filter a hm)

/-- A wide write keeps the canonical form. -/
theorem Memory.wf_store {m : Memory} (hm : m.wf = true) (a : Addr) (n : Nat) (v : Word) : (m.store a n v).wf = true := by
  induction n generalizing m a v with
  | zero => exact hm
  | succ n ih => exact ih (Memory.wf_put hm a.isLt _) _ _

/-- A run of bytes keeps the canonical form. -/
theorem Memory.wf_storeBytes {m : Memory} (hm : m.wf = true) (a : Addr) (bs : List Byte) : (m.storeBytes a bs).wf = true := by
  induction bs generalizing m a with
  | nil => exact hm
  | cons b bs ih => exact ih (Memory.wf_put hm a.isLt _) _

/-! ## Wide accesses, byte by byte -/

/-- Two addresses within one run of fewer than 2^64 bytes differ. -/
theorem addr_add_ne {a : Addr} {k n : Nat} (hk : 0 < k) (hkn : k < n) (hn : n ≤ 2 ^ 64) : a + BitVec.ofNat 64 k ≠ a := by
  intro h
  have := congrArg BitVec.toNat h
  simp only [BitVec.toNat_add, BitVec.toNat_ofNat] at this
  have := a.isLt
  omega

/-- A wide write leaves every byte outside it alone. -/
theorem Memory.get_store_outside (m : Memory) (a : Addr) (n : Nat) (v : Word) (x : Nat)
    (h : ∀ k < n, x ≠ (a + BitVec.ofNat 64 k).toNat) : (m.store a n v).get x = m.get x := by
  induction n generalizing m a v with
  | zero => rfl
  | succ n ih =>
    have h0 : x ≠ a.toNat := by simpa using h 0 (by omega)
    rw [Memory.store, ih, Memory.get_put_ne _ _ h0]
    intro k hk
    have := h (k + 1) (by omega)
    rwa [show a + 1#64 + BitVec.ofNat 64 k = a + BitVec.ofNat 64 (k + 1) by
      rw [BitVec.add_assoc]; congr 1; apply BitVec.eq_of_toNat_eq; simp; omega]

/-- The bytes a wide write leaves: byte `k` of the value at the `k`-th address. -/
theorem Memory.get_store_inside (m : Memory) (a : Addr) (n : Nat) (v : Word) (hn : n ≤ 2 ^ 64) (k : Nat) (hk : k < n) :
    (m.store a n v).get (a + BitVec.ofNat 64 k).toNat = (v >>> (8 * k)).setWidth 8 := by
  induction n generalizing m a v k with
  | zero => omega
  | succ n ih =>
    rw [Memory.store]
    cases k with
    | zero =>
      rw [Memory.get_store_outside]
      · simp
      · intro j hj e
        have hne : a + BitVec.ofNat 64 (j + 1) ≠ a := addr_add_ne (by omega) (show j + 1 < n + 1 by omega) hn
        apply hne
        apply BitVec.eq_of_toNat_eq
        have : a + 1#64 + BitVec.ofNat 64 j = a + BitVec.ofNat 64 (j + 1) := by
          rw [BitVec.add_assoc]; congr 1; apply BitVec.eq_of_toNat_eq; simp; omega
        rw [← this, ← e]; simp
    | succ k =>
      have h1 : a + BitVec.ofNat 64 (k + 1) = a + 1#64 + BitVec.ofNat 64 k := by
        rw [BitVec.add_assoc]; congr 1; apply BitVec.eq_of_toNat_eq; simp; omega
      rw [h1, ih _ _ _ (by omega) k (by omega)]
      congr 1
      rw [← BitVec.shiftRight_add]
      congr 1; omega

/-- The bits of a wide read: bit `i` is bit `i % 8` of the byte `i / 8` bytes on (R70). -/
theorem Memory.getLsbD_load (m : Memory) (a : Addr) (n i : Nat) (hn : n ≤ 8) :
    (m.load a n).getLsbD i = (decide (i < 8 * n) && (m.get (a + BitVec.ofNat 64 (i / 8)).toNat).getLsbD (i % 8)) := by
  induction n generalizing a i with
  | zero => simp [Memory.load]
  | succ n ih =>
    rw [Memory.load, BitVec.getLsbD_or, BitVec.getLsbD_shiftLeft, BitVec.getLsbD_setWidth, ih _ _ (by omega)]
    by_cases hi : i < 8
    · have : i / 8 = 0 := by omega
      have h8 : i < 8 * (n + 1) := by omega
      simp [hi, this, h8, Nat.mod_eq_of_lt hi, show i < 64 by omega]
    · have hb : (m.get a.toNat).getLsbD i = false := BitVec.getLsbD_of_ge _ _ (by omega)
      have hd : i / 8 = (i - 8) / 8 + 1 := by omega
      have ha : a + BitVec.ofNat 64 (i / 8) = a + 1#64 + BitVec.ofNat 64 ((i - 8) / 8) := by
        rw [BitVec.add_assoc, hd]; congr 1; apply BitVec.eq_of_toNat_eq; simp; omega
      have hm : i % 8 = (i - 8) % 8 := by omega
      rw [ha, hm, hb]
      by_cases h64 : i < 64
      · have : (i - 8 < 8 * n) = (i < 8 * (n + 1)) := by simp only [eq_iff_iff]; omega
        simp [hi, h64, this]
      · have : ¬ i < 8 * (n + 1) := by omega
        simp [h64, this]

end Sys2Proof.Machine
end

