-- ==== Sys2Proof/Laws/Environment.lean ====
section
/-! SUPPORT. What a step of an environment agent and a turn of the environment can change: memory, the device's next slots, the
transport and the schedule, and nothing of the block (R284, R295); and that they keep the memory's canonical form. -/

namespace Sys2Proof.Machine

/-- Every NIC access changes memory and the device, nothing else. -/
theorem nicWrite_frame (k : Nat) (s : State) :
    nicWrite k s = { s with mem := (nicWrite k s).mem, nic := (nicWrite k s).nic } := by
  unfold nicWrite; split <;> rfl

theorem nicRxBegin_frame (q : Nat) (f : RxFrame) (s : State) : nicRxBegin q f s = { s with nic := (nicRxBegin q f s).nic } := by
  simp only [nicRxBegin]; split <;> rfl

theorem nicTxBegin_frame (q slot : Nat) (sta : BitVec 3) (s : State) :
    nicTxBegin q slot sta s = { s with nic := (nicTxBegin q slot sta s).nic } := by
  simp only [nicTxBegin]; split <;> rfl

theorem nicRxwb_frame (q : Nat) (f : RxFrame) (s : State) :
    nicRxwb q f s = { s with mem := (nicRxwb q f s).mem, nic := (nicRxwb q f s).nic } := by
  simp only [nicRxwb]
  split
  · rw [nicWrite_frame, nicWrite_frame, nicWrite_frame, nicRxBegin_frame]
  · rfl

theorem nicTxdone_frame (q slot : Nat) (sta : BitVec 3) (s : State) :
    nicTxdone q slot sta s = { s with mem := (nicTxdone q slot sta s).mem, nic := (nicTxdone q slot sta s).nic } := by
  simp only [nicTxdone]
  split
  · rw [nicWrite_frame, nicTxBegin_frame]
  · rfl

/-- A device step changes memory, the device and the transport, nothing else. -/
theorem envStep_frame (s : State) (e : EnvStep) :
    envStep s e = { s with mem := (envStep s e).mem, nic := (envStep s e).nic, transport := (envStep s e).transport } := by
  cases e with
  | nicRxBegin q f => simp only [envStep]; rw [nicRxBegin_frame]
  | nicTxBegin q slot sta => simp only [envStep]; rw [nicTxBegin_frame]
  | nicWrite k => simp only [envStep]; rw [nicWrite_frame]
  | nicRxwb q f => simp only [envStep]; rw [nicRxwb_frame]
  | nicTxdone q slot sta => simp only [envStep]; rw [nicTxdone_frame]
  | vqDevrx k pktLen bytes =>
    simp only [envStep, vqDevrx]
    split
    · rfl
    · split <;> rfl
  | vqDevtx k => simp only [envStep, vqDevtx]; split <;> rfl

theorem envSteps_frame (s : State) (es : List EnvStep) :
    es.foldl envStep s =
      { s with mem := (es.foldl envStep s).mem, nic := (es.foldl envStep s).nic, transport := (es.foldl envStep s).transport } := by
  induction es generalizing s with
  | nil => rfl
  | cons e es ih => rw [List.foldl_cons, ih, envStep_frame s e]

/-- With nothing scheduled a turn is no step. -/
theorem State.envTurn_quiet {s : State} (h : s.env.sched = []) : s.envTurn = s := by
  unfold State.envTurn; rw [h]

/-- A turn of the environment changes memory, the device, the transport and the schedule, nothing else. -/
theorem State.envTurn_frame (s : State) :
    s.envTurn = { s with
      mem := s.envTurn.mem, nic := s.envTurn.nic, transport := s.envTurn.transport
      env := { s.env with sched := s.env.sched.tail } } := by
  cases h : s.env.sched with
  | nil => rw [State.envTurn_quiet h, List.tail_nil, ← h]
  | cons es rest =>
    have e : s.envTurn = es.foldl envStep { s with env := { s.env with sched := rest } } := by
      unfold State.envTurn; rw [h]
    rw [e, envSteps_frame]
    rfl

@[simp] theorem State.envTurn_cfg (s : State) : s.envTurn.cfg = s.cfg := by rw [s.envTurn_frame]
@[simp] theorem State.envTurn_a0 (s : State) : s.envTurn.a0 = s.a0 := by rw [s.envTurn_frame]
@[simp] theorem State.envTurn_a1 (s : State) : s.envTurn.a1 = s.a1 := by rw [s.envTurn_frame]
@[simp] theorem State.envTurn_a2 (s : State) : s.envTurn.a2 = s.a2 := by rw [s.envTurn_frame]
@[simp] theorem State.envTurn_v0 (s : State) : s.envTurn.v0 = s.v0 := by rw [s.envTurn_frame]
@[simp] theorem State.envTurn_v1 (s : State) : s.envTurn.v1 = s.v1 := by rw [s.envTurn_frame]
@[simp] theorem State.envTurn_v2 (s : State) : s.envTurn.v2 = s.v2 := by rw [s.envTurn_frame]
@[simp] theorem State.envTurn_cmd (s : State) : s.envTurn.cmd = s.cmd := by rw [s.envTurn_frame]
@[simp] theorem State.envTurn_st (s : State) : s.envTurn.st = s.st := by rw [s.envTurn_frame]
@[simp] theorem State.envTurn_halted (s : State) : s.envTurn.halted = s.halted := by rw [s.envTurn_frame]
@[simp] theorem State.envTurn_hcause (s : State) : s.envTurn.hcause = s.hcause := by rw [s.envTurn_frame]
@[simp] theorem State.envTurn_inited (s : State) : s.envTurn.inited = s.inited := by rw [s.envTurn_frame]
@[simp] theorem State.envTurn_phase (s : State) : s.envTurn.phase = s.phase := by rw [s.envTurn_frame]
@[simp] theorem State.envTurn_queues (s : State) : s.envTurn.queues = s.queues := by rw [s.envTurn_frame]
@[simp] theorem State.envTurn_pool (s : State) : s.envTurn.pool = s.pool := by rw [s.envTurn_frame]
@[simp] theorem State.envTurn_token (s : State) : s.envTurn.token = s.token := by rw [s.envTurn_frame]
@[simp] theorem State.envTurn_host (s : State) : s.envTurn.host = s.host := by rw [s.envTurn_frame]
@[simp] theorem State.envTurn_env (s : State) : s.envTurn.env = { s.env with sched := s.env.sched.tail } := by
  rw [s.envTurn_frame]

/-- A write of the NIC device keeps the memory's canonical form. -/
theorem nicWrite_wf {s : State} (h : s.mem.wf = true) (k : Nat) : (nicWrite k s).mem.wf = true := by
  unfold nicWrite
  split
  · exact h
  · exact Memory.wf_storeBytes h _ _
  · exact Memory.wf_store h _ _ _
  · exact Memory.wf_store h _ _ _
  · exact Memory.wf_store h _ _ _

/-- A device step keeps the memory's canonical form. -/
theorem envStep_wf {s : State} (h : s.mem.wf = true) (e : EnvStep) : (envStep s e).mem.wf = true := by
  cases e with
  | nicRxBegin q f => simp only [envStep]; rw [nicRxBegin_frame]; exact h
  | nicTxBegin q slot sta => simp only [envStep]; rw [nicTxBegin_frame]; exact h
  | nicWrite k => exact nicWrite_wf h k
  | nicRxwb q f =>
    simp only [envStep, nicRxwb]
    split
    · exact nicWrite_wf (nicWrite_wf (nicWrite_wf (by rw [nicRxBegin_frame]; exact h) _) _) _
    · exact h
  | nicTxdone q slot sta =>
    simp only [envStep, nicTxdone]
    split
    · exact nicWrite_wf (by rw [nicTxBegin_frame]; exact h) _
    · exact h
  | vqDevrx k pktLen bytes =>
    simp only [envStep, vqDevrx]
    split
    · exact h
    · split
      · exact Memory.wf_storeBytes h _ _
      · exact h
  | vqDevtx k => simp only [envStep, vqDevtx]; split <;> exact h

/-- A turn keeps the memory's canonical form. -/
theorem State.envTurn_wf {s : State} (h : s.mem.wf = true) : s.envTurn.mem.wf = true := by
  have steps : ∀ (es : List EnvStep) (t : State), t.mem.wf = true → (es.foldl envStep t).mem.wf = true := by
    intro es
    induction es with
    | nil => exact fun t ht => ht
    | cons e es ih => exact fun t ht => ih _ (envStep_wf ht e)
  unfold State.envTurn
  split
  · exact h
  · exact steps _ _ h

end Sys2Proof.Machine
end

