-- ==== Sys2Proof/Laws/State.lean ====
section
/-! SUPPORT. What each named update of the state leaves in each field: true by definition, so that no proof unfolds a record update. -/

namespace Sys2Proof.Machine

section finish
variable (s : State) (k : Kind)
@[simp] theorem State.finish_cfg : (s.finish k).cfg = s.cfg := rfl
@[simp] theorem State.finish_a0 : (s.finish k).a0 = s.a0 := rfl
@[simp] theorem State.finish_a1 : (s.finish k).a1 = s.a1 := rfl
@[simp] theorem State.finish_a2 : (s.finish k).a2 = s.a2 := rfl
@[simp] theorem State.finish_v0 : (s.finish k).v0 = s.v0 := rfl
@[simp] theorem State.finish_v1 : (s.finish k).v1 = s.v1 := rfl
@[simp] theorem State.finish_v2 : (s.finish k).v2 = s.v2 := rfl
@[simp] theorem State.finish_cmd : (s.finish k).cmd = s.cmd := rfl
@[simp] theorem State.finish_st : (s.finish k).st = k.code := rfl
@[simp] theorem State.finish_halted : (s.finish k).halted = s.halted := rfl
@[simp] theorem State.finish_hcause : (s.finish k).hcause = s.hcause := rfl
@[simp] theorem State.finish_inited : (s.finish k).inited = s.inited := rfl
@[simp] theorem State.finish_phase : (s.finish k).phase = s.phase := rfl
@[simp] theorem State.finish_queues : (s.finish k).queues = s.queues := rfl
@[simp] theorem State.finish_pool : (s.finish k).pool = s.pool := rfl
@[simp] theorem State.finish_token : (s.finish k).token = s.token := rfl
@[simp] theorem State.finish_mem : (s.finish k).mem = s.mem := rfl
@[simp] theorem State.finish_nic : (s.finish k).nic = s.nic := rfl
@[simp] theorem State.finish_transport : (s.finish k).transport = s.transport := rfl
@[simp] theorem State.finish_env : (s.finish k).env = s.env := rfl
@[simp] theorem State.finish_host : (s.finish k).host = s.host := rfl
end finish

section ok
variable (s : State)
@[simp] theorem State.ok_cfg : (s.ok).cfg = s.cfg := rfl
@[simp] theorem State.ok_a0 : (s.ok).a0 = s.a0 := rfl
@[simp] theorem State.ok_a1 : (s.ok).a1 = s.a1 := rfl
@[simp] theorem State.ok_a2 : (s.ok).a2 = s.a2 := rfl
@[simp] theorem State.ok_v0 : (s.ok).v0 = s.v0 := rfl
@[simp] theorem State.ok_v1 : (s.ok).v1 = s.v1 := rfl
@[simp] theorem State.ok_v2 : (s.ok).v2 = s.v2 := rfl
@[simp] theorem State.ok_cmd : (s.ok).cmd = s.cmd := rfl
@[simp] theorem State.ok_st : (s.ok).st = 0#8 := rfl
@[simp] theorem State.ok_halted : (s.ok).halted = s.halted := rfl
@[simp] theorem State.ok_hcause : (s.ok).hcause = s.hcause := rfl
@[simp] theorem State.ok_inited : (s.ok).inited = s.inited := rfl
@[simp] theorem State.ok_phase : (s.ok).phase = s.phase := rfl
@[simp] theorem State.ok_queues : (s.ok).queues = s.queues := rfl
@[simp] theorem State.ok_pool : (s.ok).pool = s.pool := rfl
@[simp] theorem State.ok_token : (s.ok).token = s.token := rfl
@[simp] theorem State.ok_mem : (s.ok).mem = s.mem := rfl
@[simp] theorem State.ok_nic : (s.ok).nic = s.nic := rfl
@[simp] theorem State.ok_transport : (s.ok).transport = s.transport := rfl
@[simp] theorem State.ok_env : (s.ok).env = s.env := rfl
@[simp] theorem State.ok_host : (s.ok).host = s.host := rfl
end ok

section ok1
variable (s : State) (v : Word)
@[simp] theorem State.ok1_cfg : (s.ok1 v).cfg = s.cfg := rfl
@[simp] theorem State.ok1_a0 : (s.ok1 v).a0 = s.a0 := rfl
@[simp] theorem State.ok1_a1 : (s.ok1 v).a1 = s.a1 := rfl
@[simp] theorem State.ok1_a2 : (s.ok1 v).a2 = s.a2 := rfl
@[simp] theorem State.ok1_v0 : (s.ok1 v).v0 = v := rfl
@[simp] theorem State.ok1_v1 : (s.ok1 v).v1 = s.v1 := rfl
@[simp] theorem State.ok1_v2 : (s.ok1 v).v2 = s.v2 := rfl
@[simp] theorem State.ok1_cmd : (s.ok1 v).cmd = s.cmd := rfl
@[simp] theorem State.ok1_st : (s.ok1 v).st = 0#8 := rfl
@[simp] theorem State.ok1_halted : (s.ok1 v).halted = s.halted := rfl
@[simp] theorem State.ok1_hcause : (s.ok1 v).hcause = s.hcause := rfl
@[simp] theorem State.ok1_inited : (s.ok1 v).inited = s.inited := rfl
@[simp] theorem State.ok1_phase : (s.ok1 v).phase = s.phase := rfl
@[simp] theorem State.ok1_queues : (s.ok1 v).queues = s.queues := rfl
@[simp] theorem State.ok1_pool : (s.ok1 v).pool = s.pool := rfl
@[simp] theorem State.ok1_token : (s.ok1 v).token = s.token := rfl
@[simp] theorem State.ok1_mem : (s.ok1 v).mem = s.mem := rfl
@[simp] theorem State.ok1_nic : (s.ok1 v).nic = s.nic := rfl
@[simp] theorem State.ok1_transport : (s.ok1 v).transport = s.transport := rfl
@[simp] theorem State.ok1_env : (s.ok1 v).env = s.env := rfl
@[simp] theorem State.ok1_host : (s.ok1 v).host = s.host := rfl
end ok1

section ok3
variable (s : State) (a b c : Word)
@[simp] theorem State.ok3_cfg : (s.ok3 a b c).cfg = s.cfg := rfl
@[simp] theorem State.ok3_a0 : (s.ok3 a b c).a0 = s.a0 := rfl
@[simp] theorem State.ok3_a1 : (s.ok3 a b c).a1 = s.a1 := rfl
@[simp] theorem State.ok3_a2 : (s.ok3 a b c).a2 = s.a2 := rfl
@[simp] theorem State.ok3_v0 : (s.ok3 a b c).v0 = a := rfl
@[simp] theorem State.ok3_v1 : (s.ok3 a b c).v1 = b := rfl
@[simp] theorem State.ok3_v2 : (s.ok3 a b c).v2 = c := rfl
@[simp] theorem State.ok3_cmd : (s.ok3 a b c).cmd = s.cmd := rfl
@[simp] theorem State.ok3_st : (s.ok3 a b c).st = 0#8 := rfl
@[simp] theorem State.ok3_halted : (s.ok3 a b c).halted = s.halted := rfl
@[simp] theorem State.ok3_hcause : (s.ok3 a b c).hcause = s.hcause := rfl
@[simp] theorem State.ok3_inited : (s.ok3 a b c).inited = s.inited := rfl
@[simp] theorem State.ok3_phase : (s.ok3 a b c).phase = s.phase := rfl
@[simp] theorem State.ok3_queues : (s.ok3 a b c).queues = s.queues := rfl
@[simp] theorem State.ok3_pool : (s.ok3 a b c).pool = s.pool := rfl
@[simp] theorem State.ok3_token : (s.ok3 a b c).token = s.token := rfl
@[simp] theorem State.ok3_mem : (s.ok3 a b c).mem = s.mem := rfl
@[simp] theorem State.ok3_nic : (s.ok3 a b c).nic = s.nic := rfl
@[simp] theorem State.ok3_transport : (s.ok3 a b c).transport = s.transport := rfl
@[simp] theorem State.ok3_env : (s.ok3 a b c).env = s.env := rfl
@[simp] theorem State.ok3_host : (s.ok3 a b c).host = s.host := rfl
end ok3

section raise
variable (s : State) (c : Cause)
@[simp] theorem State.raise_cfg : (s.raise c).cfg = s.cfg := rfl
@[simp] theorem State.raise_a0 : (s.raise c).a0 = s.a0 := rfl
@[simp] theorem State.raise_a1 : (s.raise c).a1 = s.a1 := rfl
@[simp] theorem State.raise_a2 : (s.raise c).a2 = s.a2 := rfl
@[simp] theorem State.raise_v0 : (s.raise c).v0 = s.v0 := rfl
@[simp] theorem State.raise_v1 : (s.raise c).v1 = s.v1 := rfl
@[simp] theorem State.raise_v2 : (s.raise c).v2 = s.v2 := rfl
@[simp] theorem State.raise_cmd : (s.raise c).cmd = s.cmd := rfl
@[simp] theorem State.raise_st : (s.raise c).st = 4#8 := rfl
@[simp] theorem State.raise_halted : (s.raise c).halted = true := rfl
@[simp] theorem State.raise_hcause : (s.raise c).hcause = c.code := rfl
@[simp] theorem State.raise_inited : (s.raise c).inited = s.inited := rfl
@[simp] theorem State.raise_phase : (s.raise c).phase = s.phase := rfl
@[simp] theorem State.raise_queues : (s.raise c).queues = s.queues := rfl
@[simp] theorem State.raise_pool : (s.raise c).pool = s.pool := rfl
@[simp] theorem State.raise_token : (s.raise c).token = s.token := rfl
@[simp] theorem State.raise_mem : (s.raise c).mem = s.mem := rfl
@[simp] theorem State.raise_nic : (s.raise c).nic = s.nic := rfl
@[simp] theorem State.raise_transport : (s.raise c).transport = s.transport := rfl
@[simp] theorem State.raise_env : (s.raise c).env = s.env := rfl
@[simp] theorem State.raise_host : (s.raise c).host = s.host := rfl
end raise

section setQueue
variable (s : State) (q : Nat) (f : Queue → Queue)
@[simp] theorem State.setQueue_cfg : (s.setQueue q f).cfg = s.cfg := rfl
@[simp] theorem State.setQueue_a0 : (s.setQueue q f).a0 = s.a0 := rfl
@[simp] theorem State.setQueue_a1 : (s.setQueue q f).a1 = s.a1 := rfl
@[simp] theorem State.setQueue_a2 : (s.setQueue q f).a2 = s.a2 := rfl
@[simp] theorem State.setQueue_v0 : (s.setQueue q f).v0 = s.v0 := rfl
@[simp] theorem State.setQueue_v1 : (s.setQueue q f).v1 = s.v1 := rfl
@[simp] theorem State.setQueue_v2 : (s.setQueue q f).v2 = s.v2 := rfl
@[simp] theorem State.setQueue_cmd : (s.setQueue q f).cmd = s.cmd := rfl
@[simp] theorem State.setQueue_st : (s.setQueue q f).st = s.st := rfl
@[simp] theorem State.setQueue_halted : (s.setQueue q f).halted = s.halted := rfl
@[simp] theorem State.setQueue_hcause : (s.setQueue q f).hcause = s.hcause := rfl
@[simp] theorem State.setQueue_inited : (s.setQueue q f).inited = s.inited := rfl
@[simp] theorem State.setQueue_phase : (s.setQueue q f).phase = s.phase := rfl
@[simp] theorem State.setQueue_queues : (s.setQueue q f).queues = s.queues.modify q f := rfl
@[simp] theorem State.setQueue_pool : (s.setQueue q f).pool = s.pool := rfl
@[simp] theorem State.setQueue_token : (s.setQueue q f).token = s.token := rfl
@[simp] theorem State.setQueue_mem : (s.setQueue q f).mem = s.mem := rfl
@[simp] theorem State.setQueue_nic : (s.setQueue q f).nic = s.nic := rfl
@[simp] theorem State.setQueue_transport : (s.setQueue q f).transport = s.transport := rfl
@[simp] theorem State.setQueue_env : (s.setQueue q f).env = s.env := rfl
@[simp] theorem State.setQueue_host : (s.setQueue q f).host = s.host := rfl
end setQueue

section setEnt
variable (s : State) (i : Nat) (f : Entry → Entry)
@[simp] theorem State.setEnt_cfg : (s.setEnt i f).cfg = s.cfg := rfl
@[simp] theorem State.setEnt_a0 : (s.setEnt i f).a0 = s.a0 := rfl
@[simp] theorem State.setEnt_a1 : (s.setEnt i f).a1 = s.a1 := rfl
@[simp] theorem State.setEnt_a2 : (s.setEnt i f).a2 = s.a2 := rfl
@[simp] theorem State.setEnt_v0 : (s.setEnt i f).v0 = s.v0 := rfl
@[simp] theorem State.setEnt_v1 : (s.setEnt i f).v1 = s.v1 := rfl
@[simp] theorem State.setEnt_v2 : (s.setEnt i f).v2 = s.v2 := rfl
@[simp] theorem State.setEnt_cmd : (s.setEnt i f).cmd = s.cmd := rfl
@[simp] theorem State.setEnt_st : (s.setEnt i f).st = s.st := rfl
@[simp] theorem State.setEnt_halted : (s.setEnt i f).halted = s.halted := rfl
@[simp] theorem State.setEnt_hcause : (s.setEnt i f).hcause = s.hcause := rfl
@[simp] theorem State.setEnt_inited : (s.setEnt i f).inited = s.inited := rfl
@[simp] theorem State.setEnt_phase : (s.setEnt i f).phase = s.phase := rfl
@[simp] theorem State.setEnt_queues : (s.setEnt i f).queues = s.queues := rfl
@[simp] theorem State.setEnt_pool : (s.setEnt i f).pool = { s.pool with ent := s.pool.ent.modify i f } := rfl
@[simp] theorem State.setEnt_token : (s.setEnt i f).token = s.token := rfl
@[simp] theorem State.setEnt_mem : (s.setEnt i f).mem = s.mem := rfl
@[simp] theorem State.setEnt_nic : (s.setEnt i f).nic = s.nic := rfl
@[simp] theorem State.setEnt_transport : (s.setEnt i f).transport = s.transport := rfl
@[simp] theorem State.setEnt_env : (s.setEnt i f).env = s.env := rfl
@[simp] theorem State.setEnt_host : (s.setEnt i f).host = s.host := rfl
end setEnt

section setTag
variable (s : State) (i : Nat) (t : Tag)
@[simp] theorem State.setTag_cfg : (s.setTag i t).cfg = s.cfg := rfl
@[simp] theorem State.setTag_a0 : (s.setTag i t).a0 = s.a0 := rfl
@[simp] theorem State.setTag_a1 : (s.setTag i t).a1 = s.a1 := rfl
@[simp] theorem State.setTag_a2 : (s.setTag i t).a2 = s.a2 := rfl
@[simp] theorem State.setTag_v0 : (s.setTag i t).v0 = s.v0 := rfl
@[simp] theorem State.setTag_v1 : (s.setTag i t).v1 = s.v1 := rfl
@[simp] theorem State.setTag_v2 : (s.setTag i t).v2 = s.v2 := rfl
@[simp] theorem State.setTag_cmd : (s.setTag i t).cmd = s.cmd := rfl
@[simp] theorem State.setTag_st : (s.setTag i t).st = s.st := rfl
@[simp] theorem State.setTag_halted : (s.setTag i t).halted = s.halted := rfl
@[simp] theorem State.setTag_hcause : (s.setTag i t).hcause = s.hcause := rfl
@[simp] theorem State.setTag_inited : (s.setTag i t).inited = s.inited := rfl
@[simp] theorem State.setTag_phase : (s.setTag i t).phase = s.phase := rfl
@[simp] theorem State.setTag_queues : (s.setTag i t).queues = s.queues := rfl
@[simp] theorem State.setTag_pool : (s.setTag i t).pool = { s.pool with ent := s.pool.ent.modify i (fun e => { e with tag := t }) } := rfl
@[simp] theorem State.setTag_token : (s.setTag i t).token = s.token := rfl
@[simp] theorem State.setTag_mem : (s.setTag i t).mem = s.mem := rfl
@[simp] theorem State.setTag_nic : (s.setTag i t).nic = s.nic := rfl
@[simp] theorem State.setTag_transport : (s.setTag i t).transport = s.transport := rfl
@[simp] theorem State.setTag_env : (s.setTag i t).env = s.env := rfl
@[simp] theorem State.setTag_host : (s.setTag i t).host = s.host := rfl
end setTag

section clearEnt
variable (s : State) (i : Nat)
@[simp] theorem State.clearEnt_cfg : (s.clearEnt i).cfg = s.cfg := rfl
@[simp] theorem State.clearEnt_a0 : (s.clearEnt i).a0 = s.a0 := rfl
@[simp] theorem State.clearEnt_a1 : (s.clearEnt i).a1 = s.a1 := rfl
@[simp] theorem State.clearEnt_a2 : (s.clearEnt i).a2 = s.a2 := rfl
@[simp] theorem State.clearEnt_v0 : (s.clearEnt i).v0 = s.v0 := rfl
@[simp] theorem State.clearEnt_v1 : (s.clearEnt i).v1 = s.v1 := rfl
@[simp] theorem State.clearEnt_v2 : (s.clearEnt i).v2 = s.v2 := rfl
@[simp] theorem State.clearEnt_cmd : (s.clearEnt i).cmd = s.cmd := rfl
@[simp] theorem State.clearEnt_st : (s.clearEnt i).st = s.st := rfl
@[simp] theorem State.clearEnt_halted : (s.clearEnt i).halted = s.halted := rfl
@[simp] theorem State.clearEnt_hcause : (s.clearEnt i).hcause = s.hcause := rfl
@[simp] theorem State.clearEnt_inited : (s.clearEnt i).inited = s.inited := rfl
@[simp] theorem State.clearEnt_phase : (s.clearEnt i).phase = s.phase := rfl
@[simp] theorem State.clearEnt_queues : (s.clearEnt i).queues = s.queues := rfl
@[simp] theorem State.clearEnt_pool : (s.clearEnt i).pool = { s.pool with ent := s.pool.ent.modify i (fun e => { e with hdrLen := 0#64, pktLen := 0#64, cap := s.pool.esz.setWidth 64, wire := none }) } := rfl
@[simp] theorem State.clearEnt_token : (s.clearEnt i).token = s.token := rfl
@[simp] theorem State.clearEnt_mem : (s.clearEnt i).mem = s.mem := rfl
@[simp] theorem State.clearEnt_nic : (s.clearEnt i).nic = s.nic := rfl
@[simp] theorem State.clearEnt_transport : (s.clearEnt i).transport = s.transport := rfl
@[simp] theorem State.clearEnt_env : (s.clearEnt i).env = s.env := rfl
@[simp] theorem State.clearEnt_host : (s.clearEnt i).host = s.host := rfl
end clearEnt

section release
variable (s : State) (i : Nat)
@[simp] theorem State.release_cfg : (s.release i).cfg = s.cfg := rfl
@[simp] theorem State.release_a0 : (s.release i).a0 = s.a0 := rfl
@[simp] theorem State.release_a1 : (s.release i).a1 = s.a1 := rfl
@[simp] theorem State.release_a2 : (s.release i).a2 = s.a2 := rfl
@[simp] theorem State.release_v0 : (s.release i).v0 = s.v0 := rfl
@[simp] theorem State.release_v1 : (s.release i).v1 = s.v1 := rfl
@[simp] theorem State.release_v2 : (s.release i).v2 = s.v2 := rfl
@[simp] theorem State.release_cmd : (s.release i).cmd = s.cmd := rfl
@[simp] theorem State.release_st : (s.release i).st = s.st := rfl
@[simp] theorem State.release_halted : (s.release i).halted = s.halted := rfl
@[simp] theorem State.release_hcause : (s.release i).hcause = s.hcause := rfl
@[simp] theorem State.release_inited : (s.release i).inited = s.inited := rfl
@[simp] theorem State.release_phase : (s.release i).phase = s.phase := rfl
@[simp] theorem State.release_queues : (s.release i).queues = s.queues := rfl
@[simp] theorem State.release_pool : (s.release i).pool = { s.pool with ent := s.pool.ent.modify i (fun e => { e with tag := .free, wire := none }) } := rfl
@[simp] theorem State.release_token : (s.release i).token = s.token := rfl
@[simp] theorem State.release_mem : (s.release i).mem = s.mem := rfl
@[simp] theorem State.release_nic : (s.release i).nic = s.nic := rfl
@[simp] theorem State.release_transport : (s.release i).transport = s.transport := rfl
@[simp] theorem State.release_env : (s.release i).env = s.env := rfl
@[simp] theorem State.release_host : (s.release i).host = s.host := rfl
end release

section setRxBuffer
variable (s : State) (t : Nat) (v : Option Nat)
@[simp] theorem State.setRxBuffer_cfg : (s.setRxBuffer t v).cfg = s.cfg := rfl
@[simp] theorem State.setRxBuffer_a0 : (s.setRxBuffer t v).a0 = s.a0 := rfl
@[simp] theorem State.setRxBuffer_a1 : (s.setRxBuffer t v).a1 = s.a1 := rfl
@[simp] theorem State.setRxBuffer_a2 : (s.setRxBuffer t v).a2 = s.a2 := rfl
@[simp] theorem State.setRxBuffer_v0 : (s.setRxBuffer t v).v0 = s.v0 := rfl
@[simp] theorem State.setRxBuffer_v1 : (s.setRxBuffer t v).v1 = s.v1 := rfl
@[simp] theorem State.setRxBuffer_v2 : (s.setRxBuffer t v).v2 = s.v2 := rfl
@[simp] theorem State.setRxBuffer_cmd : (s.setRxBuffer t v).cmd = s.cmd := rfl
@[simp] theorem State.setRxBuffer_st : (s.setRxBuffer t v).st = s.st := rfl
@[simp] theorem State.setRxBuffer_halted : (s.setRxBuffer t v).halted = s.halted := rfl
@[simp] theorem State.setRxBuffer_hcause : (s.setRxBuffer t v).hcause = s.hcause := rfl
@[simp] theorem State.setRxBuffer_inited : (s.setRxBuffer t v).inited = s.inited := rfl
@[simp] theorem State.setRxBuffer_phase : (s.setRxBuffer t v).phase = s.phase := rfl
@[simp] theorem State.setRxBuffer_queues : (s.setRxBuffer t v).queues = s.queues := rfl
@[simp] theorem State.setRxBuffer_pool : (s.setRxBuffer t v).pool = s.pool := rfl
@[simp] theorem State.setRxBuffer_token : (s.setRxBuffer t v).token = { s.token with rxBuffers := s.token.rxBuffers.set t v } := rfl
@[simp] theorem State.setRxBuffer_mem : (s.setRxBuffer t v).mem = s.mem := rfl
@[simp] theorem State.setRxBuffer_nic : (s.setRxBuffer t v).nic = s.nic := rfl
@[simp] theorem State.setRxBuffer_transport : (s.setRxBuffer t v).transport = s.transport := rfl
@[simp] theorem State.setRxBuffer_env : (s.setRxBuffer t v).env = s.env := rfl
@[simp] theorem State.setRxBuffer_host : (s.setRxBuffer t v).host = s.host := rfl
end setRxBuffer

section setTxBuffer
variable (s : State) (t : Nat) (v : Option Nat)
@[simp] theorem State.setTxBuffer_cfg : (s.setTxBuffer t v).cfg = s.cfg := rfl
@[simp] theorem State.setTxBuffer_a0 : (s.setTxBuffer t v).a0 = s.a0 := rfl
@[simp] theorem State.setTxBuffer_a1 : (s.setTxBuffer t v).a1 = s.a1 := rfl
@[simp] theorem State.setTxBuffer_a2 : (s.setTxBuffer t v).a2 = s.a2 := rfl
@[simp] theorem State.setTxBuffer_v0 : (s.setTxBuffer t v).v0 = s.v0 := rfl
@[simp] theorem State.setTxBuffer_v1 : (s.setTxBuffer t v).v1 = s.v1 := rfl
@[simp] theorem State.setTxBuffer_v2 : (s.setTxBuffer t v).v2 = s.v2 := rfl
@[simp] theorem State.setTxBuffer_cmd : (s.setTxBuffer t v).cmd = s.cmd := rfl
@[simp] theorem State.setTxBuffer_st : (s.setTxBuffer t v).st = s.st := rfl
@[simp] theorem State.setTxBuffer_halted : (s.setTxBuffer t v).halted = s.halted := rfl
@[simp] theorem State.setTxBuffer_hcause : (s.setTxBuffer t v).hcause = s.hcause := rfl
@[simp] theorem State.setTxBuffer_inited : (s.setTxBuffer t v).inited = s.inited := rfl
@[simp] theorem State.setTxBuffer_phase : (s.setTxBuffer t v).phase = s.phase := rfl
@[simp] theorem State.setTxBuffer_queues : (s.setTxBuffer t v).queues = s.queues := rfl
@[simp] theorem State.setTxBuffer_pool : (s.setTxBuffer t v).pool = s.pool := rfl
@[simp] theorem State.setTxBuffer_token : (s.setTxBuffer t v).token = { s.token with txBuffers := s.token.txBuffers.set t v } := rfl
@[simp] theorem State.setTxBuffer_mem : (s.setTxBuffer t v).mem = s.mem := rfl
@[simp] theorem State.setTxBuffer_nic : (s.setTxBuffer t v).nic = s.nic := rfl
@[simp] theorem State.setTxBuffer_transport : (s.setTxBuffer t v).transport = s.transport := rfl
@[simp] theorem State.setTxBuffer_env : (s.setTxBuffer t v).env = s.env := rfl
@[simp] theorem State.setTxBuffer_host : (s.setTxBuffer t v).host = s.host := rfl
end setTxBuffer

section setFreeTx
variable (s : State) (l : List Nat)
@[simp] theorem State.setFreeTx_cfg : (s.setFreeTx l).cfg = s.cfg := rfl
@[simp] theorem State.setFreeTx_a0 : (s.setFreeTx l).a0 = s.a0 := rfl
@[simp] theorem State.setFreeTx_a1 : (s.setFreeTx l).a1 = s.a1 := rfl
@[simp] theorem State.setFreeTx_a2 : (s.setFreeTx l).a2 = s.a2 := rfl
@[simp] theorem State.setFreeTx_v0 : (s.setFreeTx l).v0 = s.v0 := rfl
@[simp] theorem State.setFreeTx_v1 : (s.setFreeTx l).v1 = s.v1 := rfl
@[simp] theorem State.setFreeTx_v2 : (s.setFreeTx l).v2 = s.v2 := rfl
@[simp] theorem State.setFreeTx_cmd : (s.setFreeTx l).cmd = s.cmd := rfl
@[simp] theorem State.setFreeTx_st : (s.setFreeTx l).st = s.st := rfl
@[simp] theorem State.setFreeTx_halted : (s.setFreeTx l).halted = s.halted := rfl
@[simp] theorem State.setFreeTx_hcause : (s.setFreeTx l).hcause = s.hcause := rfl
@[simp] theorem State.setFreeTx_inited : (s.setFreeTx l).inited = s.inited := rfl
@[simp] theorem State.setFreeTx_phase : (s.setFreeTx l).phase = s.phase := rfl
@[simp] theorem State.setFreeTx_queues : (s.setFreeTx l).queues = s.queues := rfl
@[simp] theorem State.setFreeTx_pool : (s.setFreeTx l).pool = s.pool := rfl
@[simp] theorem State.setFreeTx_token : (s.setFreeTx l).token = { s.token with freeTx := l } := rfl
@[simp] theorem State.setFreeTx_mem : (s.setFreeTx l).mem = s.mem := rfl
@[simp] theorem State.setFreeTx_nic : (s.setFreeTx l).nic = s.nic := rfl
@[simp] theorem State.setFreeTx_transport : (s.setFreeTx l).transport = s.transport := rfl
@[simp] theorem State.setFreeTx_env : (s.setFreeTx l).env = s.env := rfl
@[simp] theorem State.setFreeTx_host : (s.setFreeTx l).host = s.host := rfl
end setFreeTx

section drawContents
variable (s : State) (n : Nat)
@[simp] theorem State.drawContents_cfg : (s.drawContents n).cfg = s.cfg := rfl
@[simp] theorem State.drawContents_a0 : (s.drawContents n).a0 = s.a0 := rfl
@[simp] theorem State.drawContents_a1 : (s.drawContents n).a1 = s.a1 := rfl
@[simp] theorem State.drawContents_a2 : (s.drawContents n).a2 = s.a2 := rfl
@[simp] theorem State.drawContents_v0 : (s.drawContents n).v0 = s.v0 := rfl
@[simp] theorem State.drawContents_v1 : (s.drawContents n).v1 = s.v1 := rfl
@[simp] theorem State.drawContents_v2 : (s.drawContents n).v2 = s.v2 := rfl
@[simp] theorem State.drawContents_cmd : (s.drawContents n).cmd = s.cmd := rfl
@[simp] theorem State.drawContents_st : (s.drawContents n).st = s.st := rfl
@[simp] theorem State.drawContents_halted : (s.drawContents n).halted = s.halted := rfl
@[simp] theorem State.drawContents_hcause : (s.drawContents n).hcause = s.hcause := rfl
@[simp] theorem State.drawContents_inited : (s.drawContents n).inited = s.inited := rfl
@[simp] theorem State.drawContents_phase : (s.drawContents n).phase = s.phase := rfl
@[simp] theorem State.drawContents_queues : (s.drawContents n).queues = s.queues := rfl
@[simp] theorem State.drawContents_pool : (s.drawContents n).pool = s.pool := rfl
@[simp] theorem State.drawContents_token : (s.drawContents n).token = s.token := rfl
@[simp] theorem State.drawContents_mem : (s.drawContents n).mem = s.mem.storeBytes s.cfg.poolPBase ((s.env.contents.headD []).take n) := rfl
@[simp] theorem State.drawContents_nic : (s.drawContents n).nic = s.nic := rfl
@[simp] theorem State.drawContents_transport : (s.drawContents n).transport = s.transport := rfl
@[simp] theorem State.drawContents_env : (s.drawContents n).env = { s.env with contents := s.env.contents.tail } := rfl
@[simp] theorem State.drawContents_host : (s.drawContents n).host = s.host := rfl
end drawContents

end Sys2Proof.Machine
end

