-- ==== Sys2Proof/Laws/Ops.lean ====
section
/-! SUPPORT. One lemma per shared operation that says once what it can do; proofs about the meanings cite these. -/

namespace Sys2Proof.Machine

/-! ## Memory primitives and the codec -/

@[simp] theorem State.memRead_fst (s : State) (a : Addr) (n : Nat) : (s.memRead a n).1 = s.envTurn.mem.load a n := rfl
@[simp] theorem State.memRead_snd (s : State) (a : Addr) (n : Nat) : (s.memRead a n).2 = s.envTurn := rfl
@[simp] theorem State.memWrite_mem (s : State) (a : Addr) (n : Nat) (v : Word) :
    (s.memWrite a n v).mem = s.envTurn.mem.store a n v := rfl
@[simp] theorem State.memWrite_nic (s : State) (a : Addr) (n : Nat) (v : Word) : (s.memWrite a n v).nic = s.envTurn.nic := rfl
@[simp] theorem State.memWrite_transport (s : State) (a : Addr) (n : Nat) (v : Word) :
    (s.memWrite a n v).transport = s.envTurn.transport := rfl
@[simp] theorem State.memWrite_env (s : State) (a : Addr) (n : Nat) (v : Word) :
    (s.memWrite a n v).env = { s.env with sched := s.env.sched.tail } := s.envTurn_env
@[simp] theorem State.memWrite_cfg (s : State) (a : Addr) (n : Nat) (v : Word) : (s.memWrite a n v).cfg = s.cfg := s.envTurn_cfg
@[simp] theorem State.memWrite_a0 (s : State) (a : Addr) (n : Nat) (v : Word) : (s.memWrite a n v).a0 = s.a0 := s.envTurn_a0
@[simp] theorem State.memWrite_a1 (s : State) (a : Addr) (n : Nat) (v : Word) : (s.memWrite a n v).a1 = s.a1 := s.envTurn_a1
@[simp] theorem State.memWrite_a2 (s : State) (a : Addr) (n : Nat) (v : Word) : (s.memWrite a n v).a2 = s.a2 := s.envTurn_a2
@[simp] theorem State.memWrite_v0 (s : State) (a : Addr) (n : Nat) (v : Word) : (s.memWrite a n v).v0 = s.v0 := s.envTurn_v0
@[simp] theorem State.memWrite_v1 (s : State) (a : Addr) (n : Nat) (v : Word) : (s.memWrite a n v).v1 = s.v1 := s.envTurn_v1
@[simp] theorem State.memWrite_v2 (s : State) (a : Addr) (n : Nat) (v : Word) : (s.memWrite a n v).v2 = s.v2 := s.envTurn_v2
@[simp] theorem State.memWrite_cmd (s : State) (a : Addr) (n : Nat) (v : Word) : (s.memWrite a n v).cmd = s.cmd := s.envTurn_cmd
@[simp] theorem State.memWrite_st (s : State) (a : Addr) (n : Nat) (v : Word) : (s.memWrite a n v).st = s.st := s.envTurn_st
@[simp] theorem State.memWrite_halted (s : State) (a : Addr) (n : Nat) (v : Word) : (s.memWrite a n v).halted = s.halted := s.envTurn_halted
@[simp] theorem State.memWrite_hcause (s : State) (a : Addr) (n : Nat) (v : Word) : (s.memWrite a n v).hcause = s.hcause := s.envTurn_hcause
@[simp] theorem State.memWrite_inited (s : State) (a : Addr) (n : Nat) (v : Word) : (s.memWrite a n v).inited = s.inited := s.envTurn_inited
@[simp] theorem State.memWrite_phase (s : State) (a : Addr) (n : Nat) (v : Word) : (s.memWrite a n v).phase = s.phase := s.envTurn_phase
@[simp] theorem State.memWrite_queues (s : State) (a : Addr) (n : Nat) (v : Word) : (s.memWrite a n v).queues = s.queues := s.envTurn_queues
@[simp] theorem State.memWrite_pool (s : State) (a : Addr) (n : Nat) (v : Word) : (s.memWrite a n v).pool = s.pool := s.envTurn_pool
@[simp] theorem State.memWrite_token (s : State) (a : Addr) (n : Nat) (v : Word) : (s.memWrite a n v).token = s.token := s.envTurn_token
@[simp] theorem State.memWrite_host (s : State) (a : Addr) (n : Nat) (v : Word) : (s.memWrite a n v).host = s.host := s.envTurn_host

/-- With nothing scheduled a write is the write alone. -/
theorem State.memWrite_quiet {s : State} (h : s.env.sched = []) (a : Addr) (n : Nat) (v : Word) :
    s.memWrite a n v = { s with mem := s.mem.store a n v } := by
  unfold State.memWrite; rw [State.envTurn_quiet h]

/-- A write by the block keeps the memory's canonical form. -/
theorem State.memWrite_wf {s : State} (h : s.mem.wf = true) (a : Addr) (n : Nat) (v : Word) :
    (s.memWrite a n v).mem.wf = true := Memory.wf_store (State.envTurn_wf h) _ _ _

theorem State.rxInit_wf {s : State} (h : s.mem.wf = true) (d : Addr) : (s.rxInit d).mem.wf = true :=
  State.memWrite_wf (State.memWrite_wf h _ _ _) _ _ _

theorem State.txInit_wf {s : State} (h : s.mem.wf = true) (d : Addr) : (s.txInit d).mem.wf = true :=
  State.memWrite_wf (State.memWrite_wf (State.memWrite_wf (State.memWrite_wf (State.memWrite_wf h _ _ _) _ _ _) _ _ _) _ _ _) _ _ _

theorem State.txSend_wf {s : State} (h : s.mem.wf = true) (d : Addr) (a l : Word) : (s.txSend d a l).mem.wf = true :=
  State.memWrite_wf (State.memWrite_wf (State.memWrite_wf (State.memWrite_wf (State.memWrite_wf h _ _ _) _ _ _) _ _ _) _ _ _) _ _ _

/-- A turn is the turn of memory, devices and schedule alone. -/
theorem State.memWrite_frame (s : State) (a : Addr) (n : Nat) (v : Word) :
    s.memWrite a n v = { s with
      mem := (s.memWrite a n v).mem, nic := s.envTurn.nic, transport := s.envTurn.transport
      env := { s.env with sched := s.env.sched.tail } } := by
  unfold State.memWrite; rw [s.envTurn_frame]

/-! ## Preambles (R308): where they let the operation through, and what else they answer -/

theorem codecCheck_eq (q : Nat) (s : State) : codecCheck q s =
    if s.halted = true then some (s.finish .badState)
    else if QN s.cfg ≤ q then some (s.finish .inval)
    else if QS s.cfg ≤ s.a0.toNat then some (s.finish .inval)
    else none := by
  unfold codecCheck haltCheck queueCheck slotCheck
  split <;> (try split) <;> rfl

theorem codecCheck_none (q : Nat) (s : State) :
    codecCheck q s = none ↔ s.halted = false ∧ q < QN s.cfg ∧ s.a0.toNat < QS s.cfg := by
  rw [codecCheck_eq]
  by_cases hq : QN s.cfg ≤ q <;> by_cases ha : QS s.cfg ≤ s.a0.toNat <;> cases s.halted <;> simp [hq, ha] <;> omega

theorem crCheck_eq (s : State) : crCheck s =
    if s.halted = true then some (s.finish .badState)
    else if s.cfg.family = .classic then (if s.inited = true then none else some (s.raise .notInited))
    else some (s.finish .unsupp) := by
  unfold crCheck haltCheck familyCheck initedCheck
  split <;> (try split) <;> (try split) <;> rfl

theorem crCheck_none (s : State) : crCheck s = none ↔ s.halted = false ∧ s.cfg.family = .classic ∧ s.inited = true := by
  rw [crCheck_eq]
  cases s.halted <;> cases s.cfg.family <;> cases s.inited <;> simp

theorem crQueueCheck_none (q : Nat) (s : State) :
    crQueueCheck q s = none ↔ (s.halted = false ∧ s.cfg.family = .classic ∧ s.inited = true) ∧ q < QN s.cfg := by
  unfold crQueueCheck queueCheck
  rw [← crCheck_none]
  cases h : crCheck s <;> simp

theorem trCheck_eq (s : State) : trCheck s =
    if s.halted = true then some (s.finish .badState)
    else if s.cfg.family = .token then (if s.inited = true then none else some (s.raise .notInited))
    else some (s.finish .unsupp) := by
  unfold trCheck haltCheck familyCheck initedCheck
  split <;> (try split) <;> (try split) <;> rfl

theorem trCheck_none (s : State) : trCheck s = none ↔ s.halted = false ∧ s.cfg.family = .token ∧ s.inited = true := by
  rw [trCheck_eq]
  cases s.halted <;> cases s.cfg.family <;> cases s.inited <;> simp

theorem initCheck_eq (f : Family) (s : State) : initCheck f s =
    if s.halted = true then some (s.finish .badState)
    else if s.cfg.family = f then
      (if s.inited = true then some (s.raise .alreadyInited)
       else if s.pool.present = true then some (s.raise .poolExists) else none)
    else some (s.finish .unsupp) := by
  unfold initCheck haltCheck familyCheck
  split <;> (try split) <;> (try split) <;> (try split) <;> rfl

theorem initCheck_none (f : Family) (s : State) :
    initCheck f s = none ↔ s.halted = false ∧ s.cfg.family = f ∧ s.inited = false ∧ s.pool.present = false := by
  rw [initCheck_eq]
  by_cases hf : s.cfg.family = f <;> cases s.halted <;> cases s.inited <;> cases s.pool.present <;> simp [hf]

/-! ## Pool -/

theorem Pool.mem_freeEntries (p : Pool) (i : Nat) :
    i ∈ p.freeEntries ↔ i < p.ent.length ∧ (p.ent.getD i {}).tag = .free := by
  simp [Pool.freeEntries]

theorem pickFrom_mem {k : Pick} {f : List Nat} {i : Nat} (h : pickFrom k f = some i) : i ∈ f := by
  cases k with
  | least => exact List.mem_of_mem_head? h
  | other k => exact List.mem_of_getElem? h

theorem pickFrom_none {k : Pick} {f : List Nat} : pickFrom k f = none ↔ f = [] := by
  cases k with
  | least => simp [pickFrom]
  | other k =>
    cases f with
    | nil => simp [pickFrom]
    | cons a f =>
      have : Config.pickIndex k (a :: f) % (a :: f).length < (a :: f).length := Nat.mod_lt _ (by simp)
      simp only [pickFrom, reduceCtorEq, iff_false]
      rw [List.getElem?_eq_getElem this]
      simp

/-- What `Lease()` gives (R187): a free entry of the pool. -/
theorem State.lease_some {s : State} {i : Nat} (h : s.lease = some i) :
    s.pool.present = true ∧ i < s.pool.ent.length ∧ (s.entry i).tag = .free := by
  unfold State.lease at h
  split at h
  · next hp => exact ⟨hp, (Pool.mem_freeEntries _ _).mp (pickFrom_mem h)⟩
  · cases h

/-- When `Lease()` gives nothing (R187): no pool, or no free entry. -/
theorem State.lease_none {s : State} : s.lease = none ↔ s.pool.present = false ∨ s.pool.freeEntries = [] := by
  unfold State.lease
  cases h : s.pool.present <;> simp [pickFrom_none]

/-- What an accepted handle is (R183): the recorded handle of an entry lent to the stack. -/
theorem State.reclaim_some {s : State} {h : Handle} {i : Nat} (hr : s.reclaim h = some i) :
    s.pool.present = true ∧ i < s.pool.n.toNat ∧ (s.entry i).tag = .swStack ∧ (s.entry i).wire = some h ∧
      s.cfg.poolVBase ≤ h.entry ∧ i = (h.entry - s.cfg.poolVBase).toNat / s.pool.esz.toNat ∧
      (h.entry - s.cfg.poolVBase).toNat % s.pool.esz.toNat = 0 := by
  simp only [State.reclaim] at hr
  split at hr; · cases hr
  split at hr; · cases hr
  split at hr; · cases hr
  split at hr; · cases hr
  split at hr; · cases hr
  split at hr; · cases hr
  simp only [Option.some.injEq] at hr
  subst hr
  simp_all

/-- An entry that is not lent to the stack has no acceptable handle (R183, fourth check). -/
theorem State.reclaim_none_of_tag {s : State} {h : Handle}
    (ht : (s.entry ((h.entry - s.cfg.poolVBase).toNat / s.pool.esz.toNat)).tag ≠ .swStack) : s.reclaim h = none := by
  cases hr : s.reclaim h with
  | none => rfl
  | some i =>
    have := State.reclaim_some hr
    exact absurd this.2.2.1 (by rw [this.2.2.2.2.2.1]; exact ht)

theorem State.entry_setEnt_self {s : State} {i : Nat} (h : i < s.pool.ent.length) (f : Entry → Entry) :
    (s.setEnt i f).entry i = f (s.entry i) := by
  simp [State.entry, List.getD, List.getElem?_eq_getElem h]

theorem State.entry_setEnt_ne {s : State} {i j : Nat} (h : j ≠ i) (f : Entry → Entry) : (s.setEnt i f).entry j = s.entry j := by
  simp [State.entry, List.getD, Ne.symm h]

theorem State.queue_setQueue_self {s : State} {q : Nat} (h : q < s.queues.length) (f : Queue → Queue) :
    (s.setQueue q f).queue q = f (s.queue q) := by
  simp [State.queue, List.getD, List.getElem?_eq_getElem h]

theorem State.queue_setQueue_ne {s : State} {q r : Nat} (h : r ≠ q) (f : Queue → Queue) : (s.setQueue q f).queue r = s.queue r := by
  simp [State.queue, List.getD, Ne.symm h]

/-- The three ways `PoolCreate` ends (R181): a request that cannot be represented, the allocator's refusal, the fresh pool. -/
theorem State.poolCreate_cases (s : State) (count size : Nat) :
    (s.poolCreate count size = (false, s) ∧ (2 ^ 32 ≤ count ∨ 2 ^ 32 ≤ size ∨ (0 < count ∧ size = 0))) ∨
    (count < 2 ^ 32 ∧ size < 2 ^ 32 ∧ (count = 0 ∨ 0 < size) ∧
      (((s.askBacking (count * size)).1 = false ∧ s.poolCreate count size = (false, (s.askBacking (count * size)).2)) ∨
       ((s.askBacking (count * size)).1 = true ∧
        s.poolCreate count size =
          (true, { (s.askBacking (count * size)).2.drawContents (count * size) with pool := Pool.fresh count size })))) := by
  unfold State.poolCreate
  split
  · next h => exact Or.inl ⟨rfl, by omega⟩
  · next h =>
    split
    · next h' => exact Or.inl ⟨rfl, by omega⟩
    · next h' =>
      refine Or.inr ⟨by omega, by omega, by omega, ?_⟩
      cases hb : (s.askBacking (count * size)).1 <;> simp [hb]

/-- The drawn contents of a new pool keep the memory's canonical form (R51). -/
theorem State.drawContents_wf {s : State} (h : s.mem.wf = true) (bytes : Nat) : (s.drawContents bytes).mem.wf = true :=
  Memory.wf_storeBytes h _ _

/-- With no contents listed every byte is drawn equal to the byte already there. -/
theorem State.drawContents_nil {s : State} (h : s.env.contents = []) (bytes : Nat) : s.drawContents bytes = s := by
  unfold State.drawContents
  rw [h, List.headD_nil, List.take_nil, Memory.storeBytes, List.tail_nil, ← h]

/-- The allocator's answer changes only the environment's coming choices. -/
theorem State.askBacking_frame (s : State) (bytes : Nat) :
    (s.askBacking bytes).2 = { s with env := (s.askBacking bytes).2.env } := by
  unfold State.askBacking; split <;> rfl

/-- A listed answer is the one given. -/
theorem State.askBacking_listed {s : State} {b : Bool} {rest : List Bool} (h : s.env.backing = b :: rest) (bytes : Nat) :
    s.askBacking bytes = (b && poolRoom s.cfg bytes, { s with env := { s.env with backing := rest } }) := by
  unfold State.askBacking; rw [h]

/-- The allocator grants only a pool that has its place (R76, R294). -/
theorem State.askBacking_room {s : State} {bytes : Nat} (h : (s.askBacking bytes).1 = true) : poolRoom s.cfg bytes = true := by
  unfold State.askBacking at h
  split at h <;> exact (Bool.and_eq_true _ _ ▸ h).2

/-- What a place for the pool is (R76): no wrap in either space, and no ring met. -/
theorem poolRoom_iff (p : Params) (bytes : Nat) : poolRoom p bytes = true ↔
    p.poolPBase.toNat + bytes ≤ 2 ^ 64 ∧ p.poolVBase.toNat + bytes ≤ 2 ^ 64 ∧
      ∀ r ∈ ringRegions p, p.poolPBase.toNat + bytes ≤ r.1 ∨ r.1 + r.2 ≤ p.poolPBase.toNat ∨ bytes = 0 ∨ r.2 = 0 := by
  simp [poolRoom, disjoint, List.all_eq_true, and_assoc, or_assoc]

/-- The configured pool of an instance that may be built has its place. -/
theorem validParams_room {p : Params} (h : validParams p = true) : poolRoom p (p.poolN.toNat * p.poolEsz.toNat) = true := by
  unfold validParams at h
  exact (Bool.and_eq_true _ _ ▸ h).2

/-! ## Transport -/

theorem mem_freeTokens (qs : Nat) (busy : List Nat) (t : Nat) : t ∈ freeTokens qs busy ↔ t < qs ∧ t ∉ busy := by
  simp [freeTokens]

/-- The answer of a begin call changes only the environment's coming choices. -/
theorem State.nextBegin_frame (s : State) : s.nextBegin.2 = { s with env := s.nextBegin.2.env } := by
  unfold State.nextBegin; split <;> rfl

/-- `T.receive_begin` changes only the transport, the memory, the device and the environment's coming choices. -/
theorem State.receiveBegin_frame (s : State) (i : Nat) : (s.receiveBegin i).2 = { s with
    mem := s.envTurn.mem, nic := s.envTurn.nic
    transport := (s.receiveBegin i).2.transport, env := (s.receiveBegin i).2.env } := by
  simp only [State.receiveBegin]
  split
  · dsimp only; rw [State.nextBegin_frame, State.envTurn_frame]
  · dsimp only; rw [State.nextBegin_frame, State.envTurn_frame]

/-- `T.transmit_begin` changes only the transport, the memory, the device and the environment's coming choices. -/
theorem State.transmitBegin_frame (s : State) (i nbytes : Nat) : (s.transmitBegin i nbytes).2 = { s with
    mem := s.envTurn.mem, nic := s.envTurn.nic
    transport := (s.transmitBegin i nbytes).2.transport, env := (s.transmitBegin i nbytes).2.env } := by
  simp only [State.transmitBegin]
  split
  · dsimp only; rw [State.nextBegin_frame, State.envTurn_frame]
  · dsimp only; rw [State.nextBegin_frame, State.envTurn_frame]

/-- A consumed receive completion (R289): the front of the completed tokens, with the lengths recorded with it. -/
theorem State.receiveComplete_some {s : State} {tok i : Nat} {c : (Word × Word) × State} (h : s.receiveComplete tok i = some c) :
    ∃ u rest, s.envTurn.transport.rxUsed = u :: rest ∧ u.tok = tok ∧ u.entry = i ∧ c.1 = (u.hdrLen, u.pktLen) ∧
      c.2 = { s.envTurn with transport := { s.envTurn.transport with rxUsed := rest, rxConsumed := true } } := by
  simp only [State.receiveComplete] at h
  split at h
  · cases h
  · next u rest hu =>
    split at h
    · next hc => cases h; exact ⟨u, rest, hu, hc.1, hc.2, rfl, rfl⟩
    · cases h

/-- A consumed transmit completion (R292). -/
theorem State.transmitComplete_some {s t : State} {tok i : Nat} (h : s.transmitComplete tok i = some t) :
    ∃ u rest, s.envTurn.transport.txUsed = u :: rest ∧ u.tok = tok ∧ u.entry = i ∧
      t = { s.envTurn with transport := { s.envTurn.transport with txUsed := rest, txConsumed := true } } := by
  simp only [State.transmitComplete] at h
  split at h
  · cases h
  · next u rest hu =>
    split at h
    · next hc => cases h; exact ⟨u, rest, hu, hc.1, hc.2, rfl⟩
    · cases h

end Sys2Proof.Machine
end

