-- ==== Sys2Proof/Laws/PerInstr.lean ====
section
/-! SUPPORT. The command word of every operation, row by row: its fields are the operation's code and queue, and nothing else. -/

namespace Sys2Proof.Laws

/-- The three fields of the word of `i` (R110): `OP` is the code of its row of the map, `QID` its queue number (0 where it takes none),
the upper half zero. -/
def RowWord.Statement (i : Instr) : Prop :=
  i.wellFormed = true →
    opField (encode i) = i.opcode ∧ (qidField (encode i)).toNat = i.queue?.getD 0 ∧ zeroField (encode i) = 0#16

/-- The fields of a word put together from a code and a queue number. -/
theorem encode_fields (i : Instr) : opField (encode i) = i.opcode ∧ qidField (encode i) = BitVec.ofNat 8 (i.queue?.getD 0) ∧
    zeroField (encode i) = 0#16 := by
  unfold opField qidField zeroField encode
  generalize i.opcode = o
  generalize BitVec.ofNat 8 (i.queue?.getD 0) = b
  refine ⟨?_, ?_, ?_⟩ <;>
  · apply BitVec.eq_of_getLsbD_eq
    intro k hk
    simp only [BitVec.getLsbD_extractLsb', BitVec.getLsbD_append, hk, decide_true, Bool.true_and]
    first
      | simp [show k < 8 by omega]
      | simp [show ¬ 16 + k < 8 by omega, show ¬ 16 + k - 8 < 8 by omega]

theorem rowWord_of_fields (i : Instr) : RowWord.Statement i := by
  intro h
  obtain ⟨h1, h2, h3⟩ := encode_fields i
  refine ⟨h1, ?_, h3⟩
  rw [h2, BitVec.toNat_ofNat]
  apply Nat.mod_eq_of_lt
  unfold Instr.wellFormed at h
  cases hq : i.queue? with
  | none => simp
  | some q => simpa [hq] using h

theorem RowWord.rxdInit (q : Nat) : RowWord.Statement (.rxdInit q) := rowWord_of_fields _
theorem RowWord.rxdSetaddr (q : Nat) : RowWord.Statement (.rxdSetaddr q) := rowWord_of_fields _
theorem RowWord.rxdRststat (q : Nat) : RowWord.Statement (.rxdRststat q) := rowWord_of_fields _
theorem RowWord.rxdDd (q : Nat) : RowWord.Statement (.rxdDd q) := rowWord_of_fields _
theorem RowWord.rxdEop (q : Nat) : RowWord.Statement (.rxdEop q) := rowWord_of_fields _
theorem RowWord.rxdLen (q : Nat) : RowWord.Statement (.rxdLen q) := rowWord_of_fields _
theorem RowWord.rxdRsstype (q : Nat) : RowWord.Statement (.rxdRsstype q) := rowWord_of_fields _
theorem RowWord.rxdPkttype (q : Nat) : RowWord.Statement (.rxdPkttype q) := rowWord_of_fields _
theorem RowWord.rxdHdrlen (q : Nat) : RowWord.Statement (.rxdHdrlen q) := rowWord_of_fields _
theorem RowWord.rxdRsshash (q : Nat) : RowWord.Statement (.rxdRsshash q) := rowWord_of_fields _
theorem RowWord.rxdXstatus (q : Nat) : RowWord.Statement (.rxdXstatus q) := rowWord_of_fields _
theorem RowWord.rxdXerror (q : Nat) : RowWord.Statement (.rxdXerror q) := rowWord_of_fields _
theorem RowWord.rxdVlan (q : Nat) : RowWord.Statement (.rxdVlan q) := rowWord_of_fields _
theorem RowWord.txdInit (q : Nat) : RowWord.Statement (.txdInit q) := rowWord_of_fields _
theorem RowWord.txdSend (q : Nat) : RowWord.Statement (.txdSend q) := rowWord_of_fields _
theorem RowWord.txdPolldd (q : Nat) : RowWord.Statement (.txdPolldd q) := rowWord_of_fields _
theorem RowWord.txdWaitdd (q : Nat) : RowWord.Statement (.txdWaitdd q) := rowWord_of_fields _
theorem RowWord.txdGetaddr (q : Nat) : RowWord.Statement (.txdGetaddr q) := rowWord_of_fields _
theorem RowWord.txdGetlen (q : Nat) : RowWord.Statement (.txdGetlen q) := rowWord_of_fields _
theorem RowWord.txdGetpaylen (q : Nat) : RowWord.Statement (.txdGetpaylen q) := rowWord_of_fields _
theorem RowWord.poolAllocate : RowWord.Statement .poolAllocate := rowWord_of_fields _
theorem RowWord.poolAlloc : RowWord.Statement .poolAlloc := rowWord_of_fields _
theorem RowWord.poolFree : RowWord.Statement .poolFree := rowWord_of_fields _
theorem RowWord.poolStat : RowWord.Statement .poolStat := rowWord_of_fields _
theorem RowWord.crInit : RowWord.Statement .crInit := rowWord_of_fields _
theorem RowWord.crCanrx (q : Nat) : RowWord.Statement (.crCanrx q) := rowWord_of_fields _
theorem RowWord.crRx (q : Nat) : RowWord.Statement (.crRx q) := rowWord_of_fields _
theorem RowWord.crRxrecycle : RowWord.Statement .crRxrecycle := rowWord_of_fields _
theorem RowWord.crCantx (q : Nat) : RowWord.Statement (.crCantx q) := rowWord_of_fields _
theorem RowWord.crTx (q : Nat) : RowWord.Statement (.crTx q) := rowWord_of_fields _
theorem RowWord.crTxrecycle (q : Nat) : RowWord.Statement (.crTxrecycle q) := rowWord_of_fields _
theorem RowWord.crTxalloc : RowWord.Statement .crTxalloc := rowWord_of_fields _
theorem RowWord.trInit : RowWord.Statement .trInit := rowWord_of_fields _
theorem RowWord.trCanrx : RowWord.Statement .trCanrx := rowWord_of_fields _
theorem RowWord.trRx : RowWord.Statement .trRx := rowWord_of_fields _
theorem RowWord.trRxrecycle : RowWord.Statement .trRxrecycle := rowWord_of_fields _
theorem RowWord.trCantx : RowWord.Statement .trCantx := rowWord_of_fields _
theorem RowWord.trTx : RowWord.Statement .trTx := rowWord_of_fields _
theorem RowWord.trTxrecycle : RowWord.Statement .trTxrecycle := rowWord_of_fields _
theorem RowWord.trTxalloc : RowWord.Statement .trTxalloc := rowWord_of_fields _
theorem RowWord.devInit : RowWord.Statement .devInit := rowWord_of_fields _
theorem RowWord.devCanrx (q : Nat) : RowWord.Statement (.devCanrx q) := rowWord_of_fields _
theorem RowWord.devRx (q : Nat) : RowWord.Statement (.devRx q) := rowWord_of_fields _
theorem RowWord.devRxrecycle : RowWord.Statement .devRxrecycle := rowWord_of_fields _
theorem RowWord.devCantx (q : Nat) : RowWord.Statement (.devCantx q) := rowWord_of_fields _
theorem RowWord.devTx (q : Nat) : RowWord.Statement (.devTx q) := rowWord_of_fields _
theorem RowWord.devTxrecycle (q : Nat) : RowWord.Statement (.devTxrecycle q) := rowWord_of_fields _
theorem RowWord.devTxalloc : RowWord.Statement .devTxalloc := rowWord_of_fields _
theorem RowWord.devInfo : RowWord.Statement .devInfo := rowWord_of_fields _
theorem RowWord.sysReset : RowWord.Statement .sysReset := rowWord_of_fields _

end Sys2Proof.Laws
end

