-- ==== Sys2Proof/Tests/Slice0.lean ====
section
/-! SUPPORT. Tests: ill-formed operations refused, command words written out from spec/30_encoding.md R112, one-step examples of the
rules, and for every statement that has hypotheses a state and operands that meet them. -/

namespace Sys2Proof.Tests
open Sys2Proof.Machine
set_option Elab.async false

/-! ## Well-formedness: the queue number must fit `QID` (R110) -/

theorem test_wellFormed_boundary : (Instr.rxdInit 255).wellFormed = true ∧ (Instr.rxdInit 256).wellFormed = false := by decide
theorem test_wellFormed_refuses_devRx : (Instr.devRx 256).wellFormed = false ∧ (Instr.sysReset).wellFormed = true := by decide

/-! ## Command words, from the map of R112 -/

theorem test_decode_rxd :
    decode 0x00000001#32 = .ok (.rxdInit 0) ∧
    decode 0x00002502#32 = .ok (.rxdSetaddr 37) ∧
    decode 0x00004A03#32 = .ok (.rxdRststat 74) ∧
    decode 0x00006F04#32 = .ok (.rxdDd 111) ∧
    decode 0x00009405#32 = .ok (.rxdEop 148) ∧
    decode 0x0000B906#32 = .ok (.rxdLen 185) ∧
    decode 0x0000DE07#32 = .ok (.rxdRsstype 222) ∧
    decode 0x00000308#32 = .ok (.rxdPkttype 3) ∧
    decode 0x00002809#32 = .ok (.rxdHdrlen 40) ∧
    decode 0x00004D0A#32 = .ok (.rxdRsshash 77) ∧
    decode 0x0000720B#32 = .ok (.rxdXstatus 114) ∧
    decode 0x0000970C#32 = .ok (.rxdXerror 151) ∧
    decode 0x0000BC0D#32 = .ok (.rxdVlan 188) := by
  refine ⟨?_, ?_, ?_, ?_, ?_, ?_, ?_, ?_, ?_, ?_, ?_, ?_, ?_⟩ <;> rfl

theorem test_decode_txd :
    decode 0x00000010#32 = .ok (.txdInit 0) ∧
    decode 0x00002511#32 = .ok (.txdSend 37) ∧
    decode 0x00004A12#32 = .ok (.txdPolldd 74) ∧
    decode 0x00006F13#32 = .ok (.txdWaitdd 111) ∧
    decode 0x00009414#32 = .ok (.txdGetaddr 148) ∧
    decode 0x0000B915#32 = .ok (.txdGetlen 185) ∧
    decode 0x0000DE16#32 = .ok (.txdGetpaylen 222) := by
  refine ⟨?_, ?_, ?_, ?_, ?_, ?_, ?_⟩ <;> rfl

theorem test_decode_pool :
    decode 0x00000020#32 = .ok .poolAllocate ∧
    decode 0x00000021#32 = .ok .poolAlloc ∧
    decode 0x00000022#32 = .ok .poolFree ∧
    decode 0x00000023#32 = .ok .poolStat := by
  refine ⟨?_, ?_, ?_, ?_⟩ <;> rfl

theorem test_decode_cr :
    decode 0x00000030#32 = .ok .crInit ∧
    decode 0x00002531#32 = .ok (.crCanrx 37) ∧
    decode 0x00004A32#32 = .ok (.crRx 74) ∧
    decode 0x00000033#32 = .ok .crRxrecycle ∧
    decode 0x00009434#32 = .ok (.crCantx 148) ∧
    decode 0x0000B935#32 = .ok (.crTx 185) ∧
    decode 0x0000DE36#32 = .ok (.crTxrecycle 222) ∧
    decode 0x00000037#32 = .ok .crTxalloc := by
  refine ⟨?_, ?_, ?_, ?_, ?_, ?_, ?_, ?_⟩ <;> rfl

theorem test_decode_tr :
    decode 0x00000040#32 = .ok .trInit ∧
    decode 0x00000041#32 = .ok .trCanrx ∧
    decode 0x00000042#32 = .ok .trRx ∧
    decode 0x00000043#32 = .ok .trRxrecycle ∧
    decode 0x00000044#32 = .ok .trCantx ∧
    decode 0x00000045#32 = .ok .trTx ∧
    decode 0x00000046#32 = .ok .trTxrecycle ∧
    decode 0x00000047#32 = .ok .trTxalloc := by
  refine ⟨?_, ?_, ?_, ?_, ?_, ?_, ?_, ?_⟩ <;> rfl

theorem test_decode_dev :
    decode 0x00000050#32 = .ok .devInit ∧
    decode 0x00002551#32 = .ok (.devCanrx 37) ∧
    decode 0x00004A52#32 = .ok (.devRx 74) ∧
    decode 0x00000053#32 = .ok .devRxrecycle ∧
    decode 0x00009454#32 = .ok (.devCantx 148) ∧
    decode 0x0000B955#32 = .ok (.devTx 185) ∧
    decode 0x0000DE56#32 = .ok (.devTxrecycle 222) ∧
    decode 0x00000057#32 = .ok .devTxalloc ∧
    decode 0x00000058#32 = .ok .devInfo := by
  refine ⟨?_, ?_, ?_, ?_, ?_, ?_, ?_, ?_, ?_⟩ <;> rfl

theorem test_decode_sys :
    decode 0x0000007F#32 = .ok .sysReset := rfl

/-- R111: the three ways to be reserved, and their order. -/
theorem test_decode_refuses : decode 0x00010001#32 = .error .highBitsSet ∧ decode 0x0000007E#32 = .error .unknownOp ∧
    decode 0x00000000#32 = .error .unknownOp ∧ decode 0x0000017F#32 = .error .queueNotTaken ∧
    decode 0x00000123#32 = .error .queueNotTaken ∧ decodeBytes [0x7F#8] = .error .notOneWord := by
  refine ⟨?_, ?_, ?_, ?_, ?_, ?_⟩ <;> rfl

/-- R115: the example line `TXD.SEND q0, ...` has the word 0x00000011. -/
theorem test_encode_example : encode (.txdSend 0) = 0x00000011#32 ∧ encode (.devTx 3) = 0x00000355#32 := by decide

theorem test_decodeTableWord : decodeTableWord 32 0x00000232 = some (.crRx 2) ∧ decodeTableWord 32 0x0F = none := by
  refine ⟨?_, ?_⟩ <;> rfl

/-! ## One-step examples, from the examples of the rules named -/

/-- The state an outcome gives. -/
def after (o : Result) : State := match o with | .next s => s | _ => State.reset

/-- Whether an outcome is a next state. -/
def answers (o : Result) : Bool := match o with | .next _ => true | _ => false

/-- Instance C (spec/95_test_vectors.md) with a willing allocator and the operands given. -/
def classic (a0 a1 a2 : Word) : State :=
  { State.reset with a0 := a0, a1 := a1, a2 := a2, env := { State.reset.env with backing := [true] } }

/-- Instance C with the two words of slot 0 of both rings. -/
def withWords (w0 w1 t0 t1 : Word) : State := { classic 0#64 0x80001800#64 60#64 with
  mem := (((Memory.store [] 0x1000#64 8 w0).store 0x1008#64 8 w1).store 0x2000#64 8 t0).store 0x2008#64 8 t1 }

/-- The received descriptor of the examples of R146 to R153. -/
def received : State := withWords 0xDEADBEEF80E00215#64 0x123405EA00F00003#64 0#64 0#64

theorem test_rxdInit : ((after (exec (.rxdInit 0) received)).mem.load 0x1000#64 8 = 0#64) ∧
    ((after (exec (.rxdInit 0) received)).mem = []) := by decide +kernel
theorem test_rxdSetaddr : (after (exec (.rxdSetaddr 0) received)).mem.load 0x1000#64 8 = 0x80001800#64 ∧
    (after (exec (.rxdSetaddr 0) received)).mem.load 0x1008#64 8 = 0x123405EA00F00003#64 := by decide +kernel
theorem test_rxdRststat : (after (exec (.rxdRststat 0) received)).mem.load 0x1008#64 8 = 0#64 ∧
    (after (exec (.rxdRststat 0) received)).mem.load 0x1000#64 8 = 0xDEADBEEF80E00215#64 := by decide +kernel
theorem test_rxdDd : (after (exec (.rxdDd 0) received)).v0 = 1#64 ∧
    (after (exec (.rxdDd 0) (withWords 0#64 0x0000003C00000002#64 0#64 0#64))).v0 = 0#64 := by decide +kernel
theorem test_rxdEop : (after (exec (.rxdEop 0) received)).v0 = 1#64 ∧
    (after (exec (.rxdEop 0) (withWords 0#64 0x0000003C00000001#64 0#64 0#64))).v0 = 0#64 := by decide +kernel
theorem test_rxdLen : (after (exec (.rxdLen 0) received)).v0 = 1514#64 := by decide +kernel
theorem test_rxdRsstype : (after (exec (.rxdRsstype 0) received)).v0 = 5#64 := by decide +kernel
theorem test_rxdPkttype : (after (exec (.rxdPkttype 0) received)).v0 = 0x21#64 := by decide +kernel
theorem test_rxdHdrlen : (after (exec (.rxdHdrlen 0) received)).v0 = 7#64 := by decide +kernel
theorem test_rxdRsshash : (after (exec (.rxdRsshash 0) received)).v0 = 0xDEADBEEF#64 := by decide +kernel
theorem test_rxdXstatus : (after (exec (.rxdXstatus 0) received)).v0 = 3#64 := by decide +kernel
theorem test_rxdXerror : (after (exec (.rxdXerror 0) received)).v0 = 0xF#64 := by decide +kernel
theorem test_rxdVlan : (after (exec (.rxdVlan 0) received)).v0 = 0x1234#64 := by decide +kernel
theorem test_slot_out_of_range : (after (exec (.rxdLen 0) { received with a0 := 4#64 })).st = 3#8 ∧
    (after (exec (.rxdLen 1) received)).st = 3#8 := by decide +kernel

theorem test_txdInit : (after (exec (.txdInit 0) (withWords 0#64 0#64 7#64 7#64))).mem = [] := by decide +kernel
/-- R162's example (slot 2), and its corner case `len = 0x4003C`. -/
theorem test_txdSend : (after (exec (.txdSend 0) (classic 2#64 0x80001000#64 60#64))).mem.load 0x2028#64 8 = 0x000F00002B30003C#64 ∧
    (after (exec (.txdSend 0) (classic 2#64 0x80001000#64 0x4003C#64))).mem.load 0x2028#64 8 = 0x000F00002B30003C#64 := by decide +kernel
theorem test_txdSend_disagree :
    (after (exec (.txdSend 0) (classic 0#64 0#64 0x10000#64))).mem.load 0x2008#64 8 = 0x400000002B300000#64 := by decide +kernel

/-- A sent descriptor in slot 0, without and with Descriptor-Done. -/
def sent (p : Word) : State := withWords 0#64 0#64 0x80001000#64 (0x000F00002B30003C#64 ||| p)

theorem test_txdPolldd : (after (exec (.txdPolldd 0) (sent 0#64))).v0 = 0#64 ∧
    (after (exec (.txdPolldd 0) (sent 0x100000000#64))).v0 = 1#64 := by decide +kernel
theorem test_txdWaitdd : (after (exec (.txdWaitdd 0) { sent 0#64 with st := 2#8 })).phase = .running ∧
    (after (exec (.txdWaitdd 0) { sent 0x100000000#64 with st := 2#8 })).st = 0#8 := by decide +kernel
theorem test_txdGetaddr : (after (exec (.txdGetaddr 0) (sent 0#64))).v0 = 0x80001000#64 := by decide +kernel
theorem test_txdGetlen : (after (exec (.txdGetlen 0) (sent 0#64))).v0 = 60#64 := by decide +kernel
theorem test_txdGetpaylen : (after (exec (.txdGetpaylen 0) (sent 0xF00000000#64))).v0 = 60#64 := by decide +kernel

/-- The pool of R181's example. -/
def pooled : State := after (exec .poolAllocate (classic 8#64 2048#64 0#64))
/-- With entry 0 lent, and its handle in the operands (R182's example). -/
def lent0 : State := { after (exec .poolAlloc { pooled with a0 := 100#64 }) with
  a0 := 0x40000000#64, a1 := 0x40000000#64, a2 := 100#64 }

theorem test_poolAllocate : pooled.st = 0#8 ∧ pooled.pool.n = 8#32 ∧ pooled.pool.esz = 2048#32 ∧
    pooled.physOf 3 = 0x80001800#64 ∧ pooled.ptrOf 3 = 0x40001800#64 := by decide +kernel
/-- A pool that would meet a ring (the one at 0x1000, from a base below it) or wrap is refused, whatever `BACKING` says (R76, R294). -/
theorem test_poolAllocate_place :
    let below (n : Word) : State := { State.powerOn { Config.instanceC with poolN := 1#32, poolPBase := 0#64 } [] with
      a0 := n, a1 := 2048#64, env := { State.reset.env with backing := [true] } }
    let high (n : Word) : State := { State.powerOn { Config.instanceC with poolVBase := 0xFFFFFFFFFFFF0000#64 } [] with
      a0 := n, a1 := 2048#64, env := { State.reset.env with backing := [true] } }
    (after (exec .poolAllocate (below 2#64))).st = 0#8 ∧ (after (exec .poolAllocate (below 3#64))).st = 2#8 ∧
    (after (exec .poolAllocate (high 32#64))).st = 0#8 ∧ (after (exec .poolAllocate (high 33#64))).st = 2#8 := by decide +kernel
/-- The contents of a new pool are drawn (R51). -/
theorem test_poolAllocate_contents :
    (after (exec .poolAllocate { classic 8#64 2#64 0#64 with env := { State.reset.env with backing := [true], contents := [[7#8]] } })).mem =
      [(0x80000000, 7#8)] := by decide +kernel
theorem test_poolAllocate_twice : (after (exec .poolAllocate { pooled with a0 := 8#64 })).hcause = 2#8 := by decide +kernel
theorem test_poolAlloc : lent0.st = 0#8 ∧ lent0.v0 = 0x40000000#64 ∧ lent0.v1 = 0x40000000#64 ∧ lent0.v2 = 100#64 := by decide +kernel
theorem test_poolAlloc_second : (after (exec .poolAlloc { lent0 with a0 := 100#64 })).v1 = 0x40000800#64 ∧
    (after (exec .poolAlloc { lent0 with a0 := 2049#64 })).st = 3#8 := by decide +kernel
theorem test_poolFree : ((after (exec .poolFree lent0)).entry 0).tag = .free := by decide +kernel
theorem test_poolFree_twice : (after (exec .poolFree (after (exec .poolFree lent0)))).st = 4#8 ∧
    (after (exec .poolFree (after (exec .poolFree lent0)))).hcause = 1#8 := by decide +kernel

/-- Instance C after `CR.INIT` (R201's example). -/
def crReady : State := after (exec .crInit (classic 60#64 0#64 0#64))
/-- With the receive descriptors of R205's example: three done slots. -/
def crThree : State := { crReady with
  mem := ((crReady.mem.store 0x1008#64 8 0x0000003C00000003#64).store 0x1018#64 8 0x000005EA00000003#64).store 0x1028#64 8
    0x0000004000000003#64 }
/-- With entry 4 lent and its handle in the operands (R210's example). -/
def crLent : State := { after (exec .crTxalloc crReady) with a0 := 0x40002000#64, a1 := 0x40002000#64, a2 := 60#64 }
/-- After `CR.TX` of that handle (R208's example). -/
def crSent : State := after (exec (.crTx 0) crLent)
/-- The same, reported done (R209's example). -/
def crDone : State := envStep crSent (.nicTxdone 0 0 0#3)

theorem test_crInit : crReady.st = 0#8 ∧ crReady.inited = true ∧ crReady.mem.load 0x1030#64 8 = 0x80001800#64 ∧
    crReady.mem.load 0x1038#64 8 = 0#64 := by decide +kernel
theorem test_poolStat : (after (exec .poolStat crReady)).v0 = 4#64 ∧ (after (exec .poolStat crReady)).v1 = 0#64 ∧
    (after (exec .poolStat crReady)).v2 = 4#64 := by decide +kernel
theorem test_crCanrx : (after (exec (.crCanrx 0) crReady)).v0 = 0#64 ∧ (after (exec (.crCanrx 0) crThree)).v0 = 1#64 := by
  decide +kernel
theorem test_crRx : (after (exec (.crRx 0) crThree)).v2 = 60#64 ∧ ((after (exec (.crRx 0) crThree)).queue 0).rxIndex = 3#16 ∧
    ((after (exec (.crRx 0) crThree)).queue 0).rxq = [1, 2] ∧
    (after (exec (.crRx 0) crThree)).mem.load 0x1020#64 8 = 0x80003000#64 := by decide +kernel
theorem test_crRx_again : (after (exec (.crRx 0) crReady)).st = 1#8 := by decide +kernel
theorem test_crRxrecycle : ((after (exec .crRxrecycle crLent)).entry 4).tag = .free ∧
    (after (exec .crRxrecycle { crLent with a2 := 61#64 })).hcause = 1#8 := by decide +kernel
theorem test_crCantx : (after (exec (.crCantx 0) crReady)).v0 = 1#64 ∧
    (after (exec (.crCantx 0) (crReady.setQueue 0 (fun r => { r with txBuf := [some 4, none, none, none] })))).v0 = 0#64 := by
  decide +kernel
theorem test_crTx : crSent.st = 0#8 ∧ crSent.mem.load 0x2000#64 8 = 0x80002000#64 ∧
    crSent.mem.load 0x2008#64 8 = 0x000F00002B30003C#64 ∧ (crSent.queue 0).txIndex = 1#16 ∧ (crSent.entry 4).tag = .hw := by
  decide +kernel
theorem test_crTxrecycle : ((after (exec (.crTxrecycle 0) crDone)).queue 0).txClean = 1#16 ∧
    ((after (exec (.crTxrecycle 0) crDone)).entry 4).tag = .free := by decide +kernel
theorem test_crTxrecycle_not_done : ((after (exec (.crTxrecycle 0) crSent)).queue 0).txClean = 0#16 := by decide +kernel
theorem test_crTxalloc : crLent.v0 = 0x40002000#64 ∧ (crLent.entry 4).tag = .swStack := by decide +kernel

/-- The token instance of spec/44_token_ring.md's examples. -/
def tokenParams : Params :=
  { Config.instanceC with family := .token, poolEsz := 1526#32, tokHdrLen := 12#32 }
/-- After `TR.INIT` with the reference transport (R231's example). -/
def trReady : State := after (exec .trInit { State.powerOn tokenParams [] with
  a0 := 60#64
  env := { State.reset.env with backing := [true], begins := List.replicate 8 (.contract 0) } })
/-- With a 60-byte frame completed under token 0 (R233's example). -/
def trCompleted : State := envStep trReady (.vqDevrx 0 60#64 [])
/-- With that frame received and its handle in the operands. -/
def trReceived : State := { after (exec .trRx trCompleted) with a0 := 0x40000000#64, a1 := 0x4000000C#64, a2 := 60#64 }
/-- With entry 7 lent and its handle in the operands (R238's example). -/
def trLent : State := { after (exec .trTxalloc trReady) with a0 := 0x400029BA#64, a1 := 0x400029C6#64, a2 := 60#64 }
/-- With that send completed (R237's example). -/
def trSent : State := envStep (after (exec .trTx trLent)) (.vqDevtx 0)

theorem test_trInit : trReady.st = 0#8 ∧ trReady.token.freeTx = [4, 5, 6, 7] ∧
    trReady.token.rxBuffers = [some 0, some 1, some 2, some 3] := by decide +kernel
theorem test_trCanrx : (after (exec .trCanrx trReady)).v0 = 0#64 ∧ (after (exec .trCanrx trCompleted)).v0 = 1#64 := by decide +kernel
theorem test_trRx : trReceived.v0 = 0x40000000#64 ∧ trReceived.v1 = 0x4000000C#64 ∧ trReceived.v2 = 60#64 ∧
    slotAt trReceived.token.rxBuffers 0 = none := by decide +kernel
theorem test_trRx_again : (after (exec .trRx trReady)).st = 1#8 := by decide +kernel
theorem test_trRxrecycle : slotAt (after (exec .trRxrecycle trReceived)).token.rxBuffers 0 = some 0 ∧
    (after (exec .trRxrecycle (after (exec .trRxrecycle trReceived)))).hcause = 1#8 := by decide +kernel
theorem test_trCantx : (after (exec .trCantx trReady)).v0 = 1#64 ∧
    (after (exec .trCantx { trReady with token := { trReady.token with freeTx := [] } })).v0 = 0#64 := by decide +kernel
theorem test_trTx : (after (exec .trTx trLent)).transport.txInflight = [⟨0, 7, 72⟩] ∧
    slotAt (after (exec .trTx trLent)).token.txBuffers 0 = some 7 := by decide +kernel
theorem test_trTxrecycle : (after (exec .trTxrecycle trSent)).token.freeTx = [4, 5, 6, 7] ∧
    ((after (exec .trTxrecycle trSent)).entry 7).tag = .swDriver := by decide +kernel
theorem test_trTxalloc : trLent.v0 = 0x400029BA#64 ∧ trLent.v1 = 0x400029C6#64 ∧ trLent.token.freeTx = [4, 5, 6] := by decide +kernel
theorem test_trTxalloc_size : (after (exec .trTxalloc { trReady with a0 := 1515#64 })).st = 3#8 ∧
    (after (exec .trTxalloc { trReady with a0 := 1514#64 })).st = 0#8 := by decide +kernel

theorem test_devInit : (after (exec .devInit (classic 0#64 0#64 0#64))).mem.load 0x1030#64 8 = 0x80001800#64 := by decide +kernel
theorem test_devCanrx : (after (exec (.devCanrx 0) crReady)).v0 = 0#64 ∧ (after (exec (.devCanrx 1) trReady)).st = 3#8 := by
  decide +kernel
theorem test_devRx : (after (exec (.devRx 0) crThree)).v2 = 60#64 ∧ (after (exec (.devRx 0) trCompleted)).v1 = 0x4000000C#64 := by
  decide +kernel
theorem test_devRxrecycle : ((after (exec .devRxrecycle crLent)).entry 4).tag = .free ∧
    ((after (exec .devRxrecycle trReceived)).entry 0).tag = .hw := by decide +kernel
theorem test_devCantx : (after (exec (.devCantx 0) crReady)).v0 = 1#64 ∧ (after (exec (.devCantx 0) trReady)).v0 = 1#64 := by
  decide +kernel
theorem test_devTx : (after (exec (.devTx 0) crLent)).mem.load 0x2000#64 8 = 0x80002000#64 ∧
    slotAt (after (exec (.devTx 0) trLent)).token.txBuffers 0 = some 7 := by decide +kernel
theorem test_devTxrecycle : ((after (exec (.devTxrecycle 0) crDone)).entry 4).tag = .free ∧
    ((after (exec (.devTxrecycle 0) trSent)).entry 7).tag = .swDriver := by decide +kernel
theorem test_devTxalloc : (after (exec .devTxalloc crReady)).v1 = 0x40002000#64 ∧
    (after (exec .devTxalloc trReady)).v1 = 0x400029C6#64 := by decide +kernel
theorem test_devInfo : (after (exec .devInfo (classic 1#64 0#64 0#64))).v0 = 0x0000563412005452#64 ∧
    (after (exec .devInfo (classic 5#64 0#64 0#64))).st = 3#8 := by decide +kernel
/-- R342's example: out of a halt. -/
theorem test_sysReset : (after (exec .sysReset (after (exec .poolFree crReady)))).halted = false ∧
    (after (exec .poolFree crReady)).halted = true ∧ (after (exec .sysReset crReady)).inited = false := by decide +kernel

/-! ## Witnesses: for each statement, states and operands that meet its hypotheses, at the boundaries of each clause -/

/-- The sizes of one queue's record, as a computation. -/
def checkQueue (p : Params) (r : Queue) : Bool :=
  r.rxBuf.length == QS p && r.txBuf.length == QS p && decide (r.rxIndex.toNat < QS p) && decide (r.txIndex.toNat < QS p) &&
    decide (r.txClean.toNat < QS p) && decide (r.rxq.length ≤ rxBatchSize) &&
    (List.range (QS p + 1)).any (fun k => r.txIndex.toNat == (r.txClean.toNat + k) % QS p &&
      (List.range (QS p)).all (fun j => (slotAt r.txBuf ((r.txClean.toNat + j) % QS p)).isSome == decide (j < k)))

/-- The ownership of one entry, as a computation. -/
def checkEntry (s : State) (i : Nat) : Bool :=
  (if (s.entry i).tag = .swStack then
     decide ((s.entry i).wire = some (s.handleOf i (s.entry i).hdrLen (s.entry i).pktLen)) && (s.entry i).cap == s.pool.esz.setWidth 64
   else (s.entry i).wire.isNone) &&
  (decide ((s.entry i).tag = .hw) == s.installed.contains i) && (decide ((s.entry i).tag = .swDriver) == s.held.contains i)

/-- A sufficient check of the invariant of a state that is not halted. -/
def check (s : State) : Bool :=
  validParams s.cfg && s.mem.wf && decide (s.st ≤ 5#8) && s.hcause == 0#8 && !s.halted &&
  s.queues.length == QN s.cfg && s.queues.all (checkQueue s.cfg) && s.nic.rxNext.length == QN s.cfg &&
  s.nic.rxNext.all (fun d => decide (d.toNat < QS s.cfg)) && s.token.rxBuffers.length == QS s.cfg && s.token.txBuffers.length == QS s.cfg &&
  poolRoom s.cfg (s.pool.n.toNat * s.pool.esz.toNat) &&
  s.pool.ent.length == s.pool.n.toNat && (s.pool.present || s.pool.n == 0#32) && (s.pool.n == 0#32 || s.pool.esz != 0#32) &&
  (!s.inited || s.pool.present) &&
  ((s.cfg.family == .classic && s.inited) ||
    s.queues.all (fun r => r.rxq.isEmpty && r.rxBuf.all Option.isNone && r.txBuf.all Option.isNone)) &&
  ((s.cfg.family == .token && s.inited) ||
    (s.token.freeTx.isEmpty && s.token.rxBuffers.all Option.isNone && s.token.txBuffers.all Option.isNone)) &&
  (List.range s.pool.ent.length).all (checkEntry s) && (s.installed ++ s.held).all (fun i => decide (i < s.pool.ent.length)) &&
  decide (s.installed ++ s.held).Nodup &&
  (s.cfg.family == .token || !s.inited || s.queues.all (fun r => r.rxBuf.all Option.isSome))

theorem inv_of_check {s : State} (h : check s = true) : s.Inv := by
  simp only [check, Bool.and_eq_true, Bool.or_eq_true, beq_iff_eq, decide_eq_true_eq, List.all_eq_true, Bool.not_eq_true',
    List.mem_range, bne_iff_ne] at h
  obtain ⟨⟨⟨⟨⟨⟨⟨⟨⟨⟨⟨⟨⟨⟨⟨⟨⟨⟨⟨⟨⟨hv, hm⟩, hst⟩, hc⟩, hh⟩, hql⟩, hq⟩, hnl⟩, hn⟩, hrl⟩, htl⟩, hpl⟩, hel⟩, hp⟩, hz⟩, hi⟩, hqe⟩, hte⟩, he⟩, hb⟩, hd⟩, hr⟩ := h
  have hq' : ∀ r ∈ s.queues, r.sizesOk s.cfg ∧ r.txWindowOk s.cfg := by
    intro r hr
    have := hq r hr
    simp only [checkQueue, Bool.and_eq_true, beq_iff_eq, decide_eq_true_eq, List.any_eq_true, List.mem_range, List.all_eq_true] at this
    obtain ⟨⟨⟨⟨⟨⟨h1, h2⟩, h3⟩, h4⟩, h5⟩, h6⟩, k, hk, hx, hw⟩ := this
    refine ⟨⟨h1, h2, h3, h4, h5, h6⟩, k, by omega, hx, fun j hj => ?_⟩
    have := hw j hj
    cases hs : slotAt r.txBuf ((r.txClean.toNat + j) % QS s.cfg) <;> simp [hs] at this ⊢ <;> omega
  have he' : ∀ i < s.pool.ent.length, _ := fun i hi => he i hi
  simp only [checkEntry, Bool.and_eq_true, beq_iff_eq] at he'
  refine ⟨hv, hm, ⟨hst, by simp [hc], by simp [hh, hc], by simp [hh]⟩,
    ⟨hql, fun r hr => (hq' r hr).1, hnl, hn, hrl, htl, hel, ?_, ?_, ?_⟩, hpl, ⟨?_, ?_⟩, ?_, ?_, fun r hr => (hq' r hr).2⟩
  · intro hf; rcases hp with hp | hp
    · simp [hf] at hp
    · exact hp
  · intro hf; rcases hz with hz | hz
    · exact absurd hz hf
    · exact hz
  · intro hf; rcases hi with hi | hi
    · simp [hf] at hi
    · exact hi
  · intro hf r hr
    rcases hqe with hqe | hqe
    · rcases hf with hf | hf
      · simp [hf] at hqe
      · simp [hf.1] at hqe
    · have := hqe r hr
      simp only [List.isEmpty_iff, Option.isNone_iff_eq_none] at this
      exact ⟨this.1.1, this.1.2, this.2⟩
  · intro hf
    rcases hte with hte | hte
    · rcases hf with hf | hf
      · simp [hf] at hte
      · simp [hf.1] at hte
    · simp only [List.isEmpty_iff, Option.isNone_iff_eq_none] at hte
      exact ⟨hte.1.1, hte.1.2, hte.2⟩
  · intro i hi
    have := (he' i hi).1.1
    by_cases ht : (s.entry i).tag = .swStack
    · simp only [ht, if_true, Bool.and_eq_true, decide_eq_true_eq, beq_iff_eq] at this
      exact ⟨fun _ => this, fun hne => absurd ht hne⟩
    · simp only [ht, if_false, Option.isNone_iff_eq_none] at this
      exact ⟨fun hne => absurd hne ht, fun _ => this⟩
  · intro _
    refine ⟨fun i hi => ⟨?_, ?_⟩, hb, hd, ?_⟩
    · have := (he' i hi).1.2
      rw [← decide_eq_true_iff (p := (s.entry i).tag = .hw), this]; simp
    · have := (he' i hi).2
      rw [← decide_eq_true_iff (p := (s.entry i).tag = .swDriver), this]; simp
    · intro hf hin r hr' o ho
      rcases hr with (hr | hr) | hr
      · simp [hf] at hr
      · simp [hin] at hr
      · have := hr r hr' o ho
        cases o <;> simp at this ⊢

/-- One direction of the agreement with the transport, as a computation. -/
def checkHeld (l : List (Option Nat)) (held : List (Nat × Nat)) : Bool :=
  held.all (fun p => slotAt l p.1 == some p.2) &&
    (List.range l.length).all (fun t => match slotAt l t with
      | none => true
      | some i => held.contains (t, i)) && decide (held.map Prod.fst).Nodup

theorem checkHeld_sound {l : List (Option Nat)} {held : List (Nat × Nat)} (h : checkHeld l held = true) :
    (∀ t i, slotAt l t = some i ↔ (t, i) ∈ held) ∧ (held.map Prod.fst).Nodup := by
  simp only [checkHeld, Bool.and_eq_true, List.all_eq_true, List.mem_range, decide_eq_true_eq, beq_iff_eq] at h
  obtain ⟨⟨h1, h2⟩, h3⟩ := h
  refine ⟨fun t i => ⟨fun hs => ?_, fun hm => h1 _ hm⟩, h3⟩
  have ht : t < l.length := by
    by_contra hc
    rw [slotAt, List.getD_eq_default _ _ (by omega)] at hs
    cases hs
  have := h2 t ht
  rw [hs] at this
  simpa using this

theorem tokensOk_of_check {s : State} (h : (checkHeld s.token.rxBuffers s.transport.rxHeld &&
    checkHeld s.token.txBuffers s.transport.txHeld) = true) : s.tokensOk := by
  rw [Bool.and_eq_true] at h
  intro _
  exact ⟨(checkHeld_sound h.1).1, (checkHeld_sound h.2).1, (checkHeld_sound h.1).2, (checkHeld_sound h.2).2⟩


/-- The last slot of instance C, a halted state, a queue and a slot just out of range. -/
theorem witness_codec : codecReady 0 (classic 3#64 0#64 0xFFFF#64) ∧ (classic 3#64 0#64 0xFFFF#64).quiet ∧
    ({ classic 3#64 0#64 0#64 with halted := true }).halted = true ∧ (classic 3#64 0#64 0#64).halted = false ∧
    QN (classic 3#64 0#64 0#64).cfg ≤ 1 ∧ QS (classic 4#64 0#64 0#64).cfg ≤ (classic 4#64 0#64 0#64).a0.toNat := by
  refine ⟨⟨rfl, ?_, ?_⟩, rfl, rfl, rfl, ?_, ?_⟩ <;> decide

theorem witness_DecodeOfEncode : (Instr.devTx 255).wellFormed = true := by decide
theorem witness_EncodeOfDecode : decode 0x0000FF55#32 = .ok (.devTx 255) := rfl
theorem witness_ReservedWordsAnswerUnsupported : validParams State.reset.cfg = true ∧
    ({ State.reset with cmd := 0x17F#32, phase := .issued } : State).phase = .issued ∧
    reservedWord 0x00010001#32 ∧ reservedWord 0x0000007E#32 ∧ reservedWord 0x00000080#32 ∧ reservedWord 0x0000017F#32 ∧
    ¬ reservedWord 0x0000007F#32 := by
  refine ⟨?_, rfl, ?_, ?_, ?_, ?_, ?_⟩ <;> first | decide +kernel | (unfold reservedWord reservedOp; decide +kernel)
theorem witness_StepRunsDecodedOperation : validParams State.reset.cfg = true ∧ decode 0x00000013#32 = .ok (.txdWaitdd 0) ∧
    ({ State.reset with cmd := 0x13#32, phase := .running, host := [.writeA0 0#64] } : State).host.head? ≠ some .extReset ∧
    ({ State.reset with cmd := 0x13#32, phase := .running, host := [.pause, .extReset] } : State).host.head? ≠ some .extReset ∧
    ({ State.reset with cmd := 0x13#32, phase := .issued } : State).phase = .issued :=
  ⟨by decide +kernel, rfl, by decide, by decide, rfl⟩
theorem witness_MemoryIsLittleEndian : (8 : Nat) ≤ 8 ∧ 7 < 8 := by decide
theorem witness_RxdAccessorsExtractFields : codecReady 0 (classic 3#64 0#64 0xFFFF#64) := witness_codec.1
theorem witness_RxdWritesDescriptor : codecReady 0 (classic 3#64 0#64 0xFFFF#64) ∧ (classic 3#64 0#64 0xFFFF#64).quiet :=
  ⟨witness_codec.1, rfl⟩
theorem witness_TxdWritesDescriptor : codecReady 0 (classic 3#64 0#64 0xFFFF#64) ∧ (classic 3#64 0#64 0xFFFF#64).quiet :=
  ⟨witness_codec.1, rfl⟩
theorem witness_TxdReadsDescriptor : codecReady 0 (classic 3#64 0#64 0xFFFF#64) := witness_codec.1
theorem witness_TxdWaitReadsUntilDone : codecReady 0 (sent 0#64) ∧ codecReady 0 (sent 0x100000000#64) ∧ (sent 0#64).quiet ∧
    ((sent 0#64).envTurn.mem.load (txd (sent 0#64).cfg 0 0 + 12#64) 4).getLsbD 0 = false ∧
    ((sent 0x100000000#64).envTurn.mem.load (txd (sent 0#64).cfg 0 0 + 12#64) 4).getLsbD 0 = true := by
  refine ⟨⟨rfl, ?_, ?_⟩, ⟨rfl, ?_, ?_⟩, rfl, ?_, ?_⟩ <;> decide +kernel
/-- The state `TXD.SEND` leaves meets the conditions on `u`, for the longest length that round-trips. -/
theorem witness_TxdRoundTrip : codecReady 0 (classic 3#64 0x80001000#64 0xFFFF#64) ∧ (classic 3#64 0x80001000#64 0xFFFF#64).quiet ∧
    (after (exec (.txdSend 0) (classic 3#64 0x80001000#64 0xFFFF#64))).cfg = (classic 3#64 0x80001000#64 0xFFFF#64).cfg ∧
    (after (exec (.txdSend 0) (classic 3#64 0x80001000#64 0xFFFF#64))).halted = false ∧
    (after (exec (.txdSend 0) (classic 3#64 0x80001000#64 0xFFFF#64))).env.sched = [] ∧
    (after (exec (.txdSend 0) (classic 3#64 0x80001000#64 0xFFFF#64))).a0 = 3#64 ∧
    (classic 3#64 0x80001000#64 0xFFFF#64).a2.toNat ≤ 0xFFFF := by
  refine ⟨⟨rfl, ?_, ?_⟩, rfl, ?_, ?_, ?_, ?_, ?_⟩ <;> decide +kernel

theorem witness_PoolAllocateCreatesPool : (classic 0#64 0#64 0#64).halted = false ∧ (classic 0#64 0#64 0#64).pool.present = false ∧
    (classic 0#64 0#64 0#64).inited = false ∧ pooled.pool.present = true ∧ pooled.halted = false ∧ crReady.inited = true ∧
    2 ^ 32 ≤ (classic 0x100000000#64 1#64 0#64).a0.toNat ∧ 2 ^ 32 ≤ (classic 1#64 0x100000000#64 0#64).a1.toNat ∧
    (0 < (classic 1#64 0#64 0#64).a0.toNat ∧ (classic 1#64 0#64 0#64).a1.toNat = 0) ∧
    ((classic 0xFFFFFFFF#64 1#64 0#64).askBacking 5).1 = true ∧
    (({ classic 0#64 0#64 0#64 with env := { State.reset.env with backing := [false] } } : State).askBacking 0).1 = false := by
  decide +kernel
theorem witness_PoolAllocLendsFreeEntry : pooled.halted = false ∧ pooled.pool.present = true ∧
    ({ pooled with a0 := 2049#64 }).pool.esz.toNat < ({ pooled with a0 := 2049#64 } : State).a0.toNat ∧
    ({ pooled with a0 := 2048#64 } : State).a0.toNat ≤ pooled.pool.esz.toNat ∧ (pooled.entry 7).tag = .free ∧
    7 < pooled.pool.ent.length ∧ (classic 0#64 0#64 0#64).pool.present = false ∧
    (∀ i < (after (exec .poolAlloc (after (exec .poolAllocate (classic 1#64 1#64 0#64))))).pool.ent.length,
      ((after (exec .poolAlloc (after (exec .poolAllocate (classic 1#64 1#64 0#64))))).entry i).tag ≠ .free) := by decide +kernel

theorem crLent_inv : crLent.Inv := inv_of_check (by decide +kernel)
theorem crThree_inv : crThree.Inv := inv_of_check (by decide +kernel)
theorem crDone_inv : crDone.Inv := inv_of_check (by decide +kernel)
theorem lent0_inv : lent0.Inv := inv_of_check (by decide +kernel)
theorem classic_inv : (classic 0#64 0#64 0#64).Inv := inv_of_check (by decide +kernel)

/-- No entry has been given the handle `h`. -/
theorem not_lent {s : State} {h : Handle} (c : ∀ i < s.pool.ent.length, (s.entry i).wire ≠ some h) : ∀ i, ¬ s.lent i h :=
  fun i hl => c i hl.1 hl.2.2

theorem witness_ReclaimAcceptsLentHandles : crLent.Inv ∧ crLent.pool.present = true ∧ crLent.lent 4 crLent.handleIn := by
  refine ⟨crLent_inv, ?_, ?_⟩ <;> first | (unfold State.lent; decide +kernel) | decide +kernel
theorem witness_GiveBackReturnsEntry : lent0.Inv ∧ lent0.halted = false ∧ lent0.pool.present = true ∧
    lent0.lent 0 lent0.handleIn ∧ crLent.Inv ∧ crLent.cfg.family = .classic ∧ crLent.inited = true ∧
    crLent.lent 4 crLent.handleIn ∧ (∀ i, ¬ crReady.lent i crReady.handleIn) := by
  refine ⟨lent0_inv, ?_, ?_, ?_, crLent_inv, ?_, ?_, ?_, not_lent (by decide +kernel)⟩ <;>
    first | (unfold State.lent; decide +kernel) | decide +kernel
theorem witness_HandleDiesWhenGivenBack : answers (exec .poolFree lent0) = true ∧ (after (exec .poolFree lent0)).st = 0#8 ∧
    (after (exec (.crTx 0) crLent)).st = 0#8 ∧ (after (exec .crRxrecycle crLent)).st = 0#8 ∧
    (after (exec .trRxrecycle trReceived)).st = 0#8 ∧ (after (exec .trTx trLent)).st = 0#8 := by decide +kernel
/-- An instance of each family, with two allocations that succeed one after the other. -/
theorem witness_NoDoubleLease : crReady.Inv ∧ trReady.Inv ∧
    (after (exec .crTxalloc crReady)).st = 0#8 ∧ (after (exec .poolAlloc (after (exec .crTxalloc crReady)))).st = 0#8 ∧
    (after (exec .trTxalloc trReady)).st = 0#8 ∧ (after (exec .devTxalloc (after (exec .trTxalloc trReady)))).st = 0#8 := by
  refine ⟨inv_of_check (by decide +kernel), inv_of_check (by decide +kernel), ?_⟩
  decide +kernel
theorem witness_PoolStatConserves : crReady.halted = false ∧ crReady.pool.present = true ∧
    crReady.pool.ent.length = crReady.pool.n.toNat ∧ (classic 0#64 0#64 0#64).pool.present = false := by decide +kernel

theorem witness_CrInitFillsRings : (classic 0#64 0#64 0#64).Inv ∧ (classic 0#64 0#64 0#64).halted = false ∧
    (classic 0#64 0#64 0#64).cfg.family = .classic ∧ (classic 0#64 0#64 0#64).inited = false ∧
    (classic 0#64 0#64 0#64).pool.present = false ∧
    QN (classic 0#64 0#64 0#64).cfg * QS (classic 0#64 0#64 0#64).cfg ≤ (classic 0#64 0#64 0#64).cfg.poolN.toNat ∧
    (classic 0#64 0#64 0#64).cfg.poolEsz ≠ 0#32 ∧ ((classic 0#64 0#64 0#64).askBacking (8 * 2048)).1 = true := by
  refine ⟨classic_inv, ?_, ?_, ?_, ?_, ?_, ?_, ?_⟩ <;> decide +kernel
theorem witness_CrInitWritesDescriptors : (classic 0#64 0#64 0#64).Inv ∧ (classic 0#64 0#64 0#64).quiet ∧
    answers (exec .crInit (classic 0#64 0#64 0#64)) = true ∧ crReady.st = 0#8 :=
  ⟨classic_inv, rfl, by decide +kernel, by decide +kernel⟩
theorem witness_InitRefusals : crReady.halted = false ∧ crReady.inited = true ∧ pooled.inited = false ∧ pooled.pool.present = true ∧
    pooled.cfg.family = .classic ∧ trReady.cfg.family = .token ∧
    (State.powerOn { Config.instanceC with poolN := 3#32 } []).cfg.poolN.toNat < QN Config.instanceC * QS Config.instanceC ∧
    (({ classic 0#64 0#64 0#64 with env := { State.reset.env with backing := [false] } } : State).askBacking (8 * 2048)).1 = false ∧
    validParams { Config.instanceC with poolEsz := 0#32 } = true ∧
    validParams { tokenParams with poolEsz := 0#32, tokHdrLen := 0#32 } = true := by decide +kernel
theorem witness_ClassicPredicates : ringReady 0 crReady ∧ (crReady.queue 0).rxq = [] ∧
    ((after (exec (.crRx 0) crThree)).queue 0).rxq ≠ [] ∧ crReady.quiet := by
  refine ⟨⟨?_, ?_, ?_, ?_⟩, ?_, ?_, ?_⟩ <;> first | decide +kernel | (unfold State.quiet; decide +kernel)
theorem witness_NoTxRoomExactlyWhenFull : crLent.Inv ∧ ringReady 0 crLent := by
  refine ⟨crLent_inv, ?_⟩; unfold ringReady; decide +kernel
theorem witness_CrRxPopsOldest : ringReady 0 (after (exec (.crRx 0) crThree)) ∧
    ((after (exec (.crRx 0) crThree)).queue 0).rxq = 1 :: [2] := by
  unfold ringReady; decide +kernel
/-- A slot that is not done, one done without End-of-packet, one done with no free entry. -/
theorem witness_CrRxWithoutPacket : ringReady 0 crThree ∧ crThree.env.sched = [] ∧ (crThree.queue 0).rxq = [] ∧
    (crReady.mem.load 0x1008#64 8).getLsbD 0 = false ∧ (crThree.mem.load 0x1008#64 8).getLsbD 0 = true ∧
    (crThree.mem.load 0x1008#64 8).getLsbD 1 = true ∧ ((crReady.mem.store 0x1008#64 8 1#64).load 0x1008#64 8).getLsbD 1 = false ∧
    (∀ i < 8, (({ crThree with pool := { crThree.pool with ent := List.replicate 8 ⟨.hw, 0, 0, 0, none⟩ } } : State).entry i).tag ≠ .free) := by
  unfold ringReady; decide +kernel
/-- All four slots of the ring done, four entries free. -/
def crFour : State := { crThree with mem := crThree.mem.store 0x1038#64 8 0x0000004000000003#64 }
/-- Three done slots with two entries free. -/
def crShort : State := after (exec .poolAlloc (after (exec .poolAlloc { crThree with a0 := 0#64 })))
/-- Two done slots, then one done without End-of-packet. -/
def crTorn : State := { crThree with mem := crThree.mem.store 0x1028#64 8 1#64 }
/-- A ring of 65 slots, all done, with 65 entries free. -/
def crLong : State := { crReady with
  cfg := { crReady.cfg with qs := 65#16, poolN := 130#32, poolEsz := 64#32 }
  pool := { present := true, n := 130#32, esz := 64#32, ent := List.replicate 65 ⟨.hw, 0, 0, 64, none⟩ ++ List.replicate 65 {} }
  queues := [{ rxBuf := (List.range 65).map some, txBuf := List.replicate 65 none }]
  token := { rxBuffers := List.replicate 65 none, txBuffers := List.replicate 65 none }
  mem := (List.range 65).map (fun j => (0x1008 + 16 * j, 3#8)) }

/-- The hypotheses of CrRxDrainsInOrder that do not say how the batch ends. -/
def drains (s : State) (k : Nat) : Prop := s.env.sched = [] ∧ ringReady 0 s ∧ (s.queue 0).rxq = [] ∧ k ≤ 64 ∧ k ≤ QS s.cfg ∧
  k ≤ s.pool.count .free ∧ ∀ j < k, (s.rxStatus 0 j).getLsbD 0 = true ∧ (s.rxStatus 0 j).getLsbD 1 = true

/-- A batch ended by a slot that is not done, by the end of the ring, by the end of the stock, by the batch size, and by a done slot
without End-of-packet. -/
theorem witness_CrRxDrainsInOrder : crThree.Inv ∧ drains crThree 3 ∧ (crThree.rxStatus 0 3).getLsbD 0 = false ∧
    crFour.Inv ∧ drains crFour 4 ∧ 4 = QS crFour.cfg ∧
    crShort.Inv ∧ drains crShort 2 ∧ (crShort.rxStatus 0 2).getLsbD 1 = true ∧ crShort.pool.count .free = 2 ∧
    crTorn.Inv ∧ drains crTorn 2 ∧ (crTorn.rxStatus 0 2).getLsbD 0 = true ∧ (crTorn.rxStatus 0 2).getLsbD 1 = false := by
  refine ⟨crThree_inv, ?_, ?_, inv_of_check (by decide +kernel), ?_, ?_, inv_of_check (by decide +kernel), ?_, ?_, ?_,
    inv_of_check (by decide +kernel), ?_, ?_, ?_⟩ <;> first | decide +kernel | (unfold drains ringReady; decide +kernel)
theorem witness_CrRxDrainsInOrder_batch : crLong.Inv ∧ drains crLong 64 ∧ 64 < QS crLong.cfg := by
  refine ⟨inv_of_check (by decide +kernel), ?_, by decide +kernel⟩
  unfold drains ringReady; decide +kernel
/-- The drained packets stay queued and their slots re-armed when a later slot has no End-of-packet (R312). -/
theorem test_crRx_noEop_later : (after (exec (.crRx 0) crTorn)).hcause = 6#8 ∧ ((after (exec (.crRx 0) crTorn)).queue 0).rxq = [0, 1] ∧
    ((after (exec (.crRx 0) crTorn)).queue 0).rxBuf = [some 4, some 5, some 2, some 3] := by decide +kernel
theorem witness_CrTxHandsOver : crLent.Inv ∧ ringReady 0 crLent ∧ crLent.lent 4 crLent.handleIn ∧
    slotAt (crLent.queue 0).txBuf (crLent.queue 0).txIndex.toNat = none ∧ crLent.env.sched = [] := by
  refine ⟨crLent_inv, ?_⟩
  unfold ringReady State.lent; decide +kernel
/-- A full ring of one slot, with another entry lent. -/
def crFull : State := { crLent with
  cfg := { crLent.cfg with qs := 1#16 }
  pool := { crLent.pool with
    ent := (crLent.pool.ent.modify 1 (fun e => { e with tag := .free })).modify 2 (fun e => { e with tag := .free }) }
  queues := [{ rxBuf := [some 0], txBuf := [some 3] }], token := { rxBuffers := [none], txBuffers := [none] } }
theorem witness_CrTxRefuses : crFull.Inv ∧ ({ crFull with a2 := 61#64 } : State).Inv ∧
    (∀ i, ¬ ({ crFull with a2 := 61#64 } : State).lent i ({ crFull with a2 := 61#64 } : State).handleIn) ∧
    ringReady 0 crFull ∧ crFull.lent 4 crFull.handleIn ∧
    slotAt (crFull.queue 0).txBuf (crFull.queue 0).txIndex.toNat ≠ none := by
  refine ⟨inv_of_check (by decide +kernel), inv_of_check (by decide +kernel), not_lent (by decide +kernel), ?_⟩
  unfold ringReady State.lent; decide +kernel
/-- A ring of four sends, all reported done. -/
def crAllSent : State := { crReady with
  pool := { crReady.pool with ent := List.replicate 8 ⟨.hw, 0, 0, 2048, none⟩ }
  queues := [{ rxBuf := [some 0, some 1, some 2, some 3], txBuf := [some 4, some 5, some 6, some 7], txIndex := 2#16, txClean := 2#16 }]
  mem := [(0x200C, 1#8), (0x201C, 1#8), (0x202C, 1#8), (0x203C, 1#8)] }
/-- One slot reclaimed (the next is empty), none (the first is not done), and the whole ring. -/
theorem witness_CrTxrecycleReclaimsDone : crDone.Inv ∧ ringReady 0 crDone ∧ crDone.env.sched = [] ∧ 1 ≤ QS crDone.cfg ∧
    slotAt (crDone.queue 0).txBuf (slotFrom crDone.cfg (crDone.queue 0).txClean 0) ≠ none ∧
    (crDone.mem.load (txd crDone.cfg 0 0 + 12#64) 4).getLsbD 0 = true ∧
    slotAt (crDone.queue 0).txBuf (slotFrom crDone.cfg (crDone.queue 0).txClean 1) = none ∧
    (crSent.mem.load (txd crSent.cfg 0 0 + 12#64) 4).getLsbD 0 = false ∧
    crAllSent.Inv ∧ ringReady 0 crAllSent ∧ crAllSent.env.sched = [] ∧
    (∀ j < QS crAllSent.cfg, slotAt (crAllSent.queue 0).txBuf (slotFrom crAllSent.cfg (crAllSent.queue 0).txClean j) ≠ none ∧
      (crAllSent.mem.load (txd crAllSent.cfg 0 (slotFrom crAllSent.cfg (crAllSent.queue 0).txClean j) + 12#64) 4).getLsbD 0 = true) := by
  refine ⟨crDone_inv, ?_, ?_, ?_, ?_, ?_, ?_, ?_, inv_of_check (by decide +kernel), ?_, ?_, ?_⟩ <;>
    first | decide +kernel | (unfold ringReady; decide +kernel)
theorem witness_CrTxallocLendsFreeEntry : classicReady crReady ∧ crReady.pool.present = true ∧
    crReady.pool.esz.toNat < ({ crReady with a0 := 2049#64 } : State).a0.toNat ∧
    ({ crReady with a0 := 2048#64 } : State).a0.toNat ≤ crReady.pool.esz.toNat ∧ 7 < crReady.pool.ent.length ∧
    (crReady.entry 7).tag = .free := by
  unfold classicReady; decide +kernel

/-- The token instance before initialisation. -/
def tokenFresh (begins : List BeginAnswer) : State := { State.powerOn tokenParams [] with
  env := { State.reset.env with backing := [true], begins := begins } }
theorem tokenFresh_inv : (tokenFresh []).Inv := inv_of_check (by decide +kernel)
theorem trLent_inv : trLent.Inv := inv_of_check (by decide +kernel)
theorem trReceived_inv : trReceived.Inv := inv_of_check (by decide +kernel)
theorem trSent_inv : trSent.Inv := inv_of_check (by decide +kernel)
theorem trLent_tokens : trLent.tokensOk := tokensOk_of_check (by decide +kernel)
theorem trReceived_tokens : trReceived.tokensOk := tokensOk_of_check (by decide +kernel)
theorem trSent_tokens : trSent.tokensOk := tokensOk_of_check (by decide +kernel)

theorem witness_TrInitFillsRing : (tokenFresh []).Inv ∧ (tokenFresh []).halted = false ∧ (tokenFresh []).cfg.family = .token ∧
    (tokenFresh []).inited = false ∧ (tokenFresh []).pool.present = false ∧ (tokenFresh []).cfg.poolEsz ≠ 0#32 ∧
    ((tokenFresh []).askBacking (8 * 1526)).1 = true ∧ (tokenFresh []).transport = {} ∧
    (∀ a ∈ (tokenFresh []).env.begins, ∃ k, a = .contract k) ∧ (tokenFresh []).quiet :=
  ⟨tokenFresh_inv, rfl, rfl, rfl, rfl, by decide, by decide +kernel, rfl, fun a ha => (by cases ha), rfl⟩
/-- The headers are written into the first bytes of the buffers of the free-list, in order, and nothing into the rings (R293). -/
theorem test_trInit_headers : (after (exec .trInit { tokenFresh (List.replicate 4 (.contract 0)) with
      mem := [(0x1000, 5#8)]
      env := { (tokenFresh (List.replicate 4 (.contract 0))).env with headers := [[1#8, 2#8], [3#8]] } })).mem =
    [(0x1000, 5#8), (0x800017D8, 1#8), (0x800017D9, 2#8), (0x80001DCE, 3#8)] := by decide +kernel
/-- A wrong answer to the first submission, to the second, and `Full` to the last. -/
theorem witness_TrInitChecksTokens : validParams (tokenFresh []).cfg = true ∧
    (tokenFresh []).token.rxBuffers.length = QS (tokenFresh []).cfg ∧
    (tokenFresh [.faulty 4#16]).env.begins = [] ++ .faulty 4#16 :: [] ∧ (4#16 : BitVec 16).toNat ≠ 0 ∧
    (tokenFresh [.contract 5, .faulty 0#16]).env.begins = [.contract 5] ++ .faulty 0#16 :: [] ∧ (0#16 : BitVec 16).toNat ≠ 1 ∧
    (tokenFresh [.contract 0, .contract 0, .contract 0, .faultyFull]).env.begins =
      [.contract 0, .contract 0, .contract 0] ++ .faultyFull :: [] ∧
    3 < QS (tokenFresh []).cfg ∧ (tokenFresh [.contract 5, .faulty 0#16]).transport = {} := by decide +kernel
theorem test_trInit_mismatch : (after (exec .trInit (tokenFresh [.contract 5, .faulty 0#16]))).hcause = 7#8 ∧
    (after (exec .trInit (tokenFresh [.contract 5, .faulty 0#16]))).token.rxBuffers = [some 0, none, none, none] ∧
    (after (exec .trInit (tokenFresh [.contract 5, .faulty 0#16]))).pool.count .hw = 2 := by decide +kernel
theorem witness_TokenPredicates : tokenReady trReady ∧ trReady.token.freeTx ≠ [] ∧
    (0 < QS trReady.cfg ∧ 0 ∉ trReady.envTurn.transport.txHeld.map Prod.fst) ∧ trReady.env.sched = [] := by
  unfold tokenReady; decide +kernel
theorem witness_TrRxDeliversFront : tokenReady trCompleted ∧ trCompleted.env.sched = [] ∧
    trCompleted.transport.rxUsed = ⟨0, 0, 12#64, 60#64⟩ :: [] ∧ slotAt trCompleted.token.rxBuffers 0 = some 0 ∧
    trReady.transport.rxUsed = [] ∧ QS trReady.cfg ≤ (⟨4, 0, 0, 0⟩ : RxDone).tok ∧
    slotAt trReceived.token.rxBuffers 0 = none := by
  unfold tokenReady; decide +kernel
theorem witness_TrRxrecycleResubmits : trReceived.Inv ∧ trReceived.tokensOk ∧ tokenReady trReceived ∧
    trReceived.env.sched = [] ∧ trReceived.lent 0 trReceived.handleIn ∧
    trReceived.env.begins = .contract 0 :: [.contract 0, .contract 0, .contract 0] ∧
    (0 < QS trReceived.cfg ∧ slotAt trReceived.token.rxBuffers 0 = none) ∧ ¬ trReceived.transport.rxCount < QS trReceived.cfg := by
  refine ⟨trReceived_inv, trReceived_tokens, ?_⟩
  unfold tokenReady State.lent; decide +kernel
theorem witness_TrTxSubmits : trLent.Inv ∧ trLent.tokensOk ∧ tokenReady trLent ∧ trLent.env.sched = [] ∧
    trLent.lent 7 trLent.handleIn ∧ trLent.env.begins = .contract 0 :: [.contract 0, .contract 0, .contract 0] ∧
    (0 < QS trLent.cfg ∧ slotAt trLent.token.txBuffers 0 = none) ∧
    (trLent.transport.txCount < QS trLent.cfg → trLent.transport.txConsumed = false →
      slotAt trLent.token.txBuffers trLent.transport.txCount = none) := by
  refine ⟨trLent_inv, trLent_tokens, ?_⟩
  unfold tokenReady State.lent; decide +kernel
/-- A faulty answer out of range, one at an occupied slot, a full tx ring, a completed token that is not there, and an rx ring with no
free token (a transmit handle given to `TR.RXRECYCLE`, R351). -/
theorem witness_TokenChecksHalt : trLent.Inv ∧ (∀ i, ¬ trReady.lent i trReady.handleIn) ∧ tokenReady trLent ∧ trLent.env.sched = [] ∧
    trLent.lent 7 trLent.handleIn ∧ QS trLent.cfg ≤ (4#16 : BitVec 16).toNat ∧
    slotAt trLent.token.rxBuffers (3#16 : BitVec 16).toNat ≠ none ∧ (0 < QS trLent.cfg ∧ 0 ∉ trLent.transport.txHeld.map Prod.fst) ∧
    (∀ t < QS trLent.cfg, t ∈ ({ trLent.transport with
      txInflight := [⟨0, 4, 0⟩, ⟨1, 5, 0⟩, ⟨2, 6, 0⟩, ⟨3, 7, 0⟩] } : Transport).txHeld.map Prod.fst) ∧
    (4 : Nat) ≤ (⟨4, 0, 0⟩ : TxFlight).tok ∧ slotAt trLent.token.txBuffers 3 = none ∧
    (∀ t < QS trLent.cfg, t ∈ trLent.transport.rxHeld.map Prod.fst) ∧
    (∀ a ∈ trLent.env.begins.head?, a = .contract 0) := by
  refine ⟨trLent_inv, not_lent (by decide +kernel), ?_⟩
  unfold tokenReady State.lent; decide +kernel
theorem test_transport_full : (after (exec .trRxrecycle trLent)).hcause = 13#8 ∧ ((after (exec .trRxrecycle trLent)).entry 7).tag = .hw ∧
    (after (exec .trTx { trLent with env := { trLent.env with begins := [.faultyFull] } })).hcause = 13#8 := by decide +kernel
/-- One good completion, then one out of range; and the good one reported twice. -/
def trRange : State := { trSent with transport := { trSent.transport with txUsed := [⟨0, 7, 72⟩, ⟨4, 5, 0⟩] } }
def trTwice : State := { trSent with transport := { trSent.transport with txUsed := [⟨0, 7, 72⟩, ⟨0, 7, 72⟩] } }
theorem witness_TrTxrecycleDrainsAll_halts : trRange.Inv ∧ trTwice.Inv ∧ tokenReady trRange ∧ tokenReady trTwice ∧
    slotAt trRange.token.txBuffers 0 = some 7 ∧ QS trRange.cfg ≤ 4 ∧ ([⟨0, 7, 72⟩] : List TxFlight).map (·.tok) = [0] := by
  refine ⟨inv_of_check (by decide +kernel), inv_of_check (by decide +kernel), ?_⟩
  unfold tokenReady; decide +kernel
theorem test_trTxrecycle_halts_later : (after (exec .trTxrecycle trRange)).hcause = 8#8 ∧
    (after (exec .trTxrecycle trTwice)).hcause = 12#8 ∧ (after (exec .trTxrecycle trTwice)).token.freeTx = [4, 5, 6, 7] ∧
    (after (exec .trTxrecycle trTwice)).transport.txUsed = [⟨0, 7, 72⟩] := by decide +kernel
theorem witness_TrTxrecycleDrainsAll : trSent.Inv ∧ trSent.tokensOk ∧ tokenReady trSent ∧ trSent.env.sched = [] ∧
    trSent.transport.txUsed = [⟨0, 7, 72⟩] ++ [] := by
  refine ⟨trSent_inv, trSent_tokens, ?_⟩
  unfold tokenReady; decide +kernel
theorem witness_TrTxallocPopsTop : tokenReady trReady ∧ trReady.token.freeTx = [4, 5, 6] ++ [7] ∧
    (trReady.entry 7).hdrLen.toNat + 1514 ≤ (trReady.entry 7).cap.toNat ∧
    (trReady.entry 7).cap.toNat < (trReady.entry 7).hdrLen.toNat + 1515 := by
  unfold tokenReady; decide +kernel

theorem witness_DevDispatchesOnFamily : crReady.halted = false ∧ crReady.cfg.family = .classic ∧ trReady.halted = false ∧
    trReady.cfg.family = .token ∧ 0 < QN trReady.cfg ∧ QN trReady.cfg ≤ 1 ∧ trReady.inited = true ∧
    answers (exec (.devRx 0) crReady) = true := by decide +kernel
theorem witness_DevInfoValues : (classic 4#64 0#64 0#64).halted = false ∧ (classic 4#64 0#64 0#64).a0 = 4#64 ∧
    5 ≤ (classic 5#64 0#64 0#64).a0.toNat := by decide
theorem witness_OperationsEndWithAKind : crReady.phase = .idle ∧ answers (exec .poolStat crReady) = true := by decide +kernel
theorem witness_ResultsOnlyWithOk : answers (exec (.crRx 0) crReady) = true ∧ (after (exec (.crRx 0) crReady)).st ≠ 0#8 := by
  decide +kernel
/-- A refusal of each kind. -/
theorem witness_RefusalsChangeNothing : (after (exec (.crRx 0) crReady)).st = 1#8 ∧
    (after (exec .poolAlloc (classic 0#64 0#64 0#64))).st = 2#8 ∧ (after (exec .devInfo (classic 5#64 0#64 0#64))).st = 3#8 ∧
    (after (exec .trInit (classic 0#64 0#64 0#64))).st = 5#8 := by decide +kernel
theorem witness_TrapEntryWritesCause : crReady.halted = false ∧ (after (exec .poolFree crReady)).halted = true ∧
    (after (exec .poolStat crReady)).halted = false := by decide +kernel
theorem witness_HaltedBlockIsFrozen : (after (exec .poolFree crReady)).halted = true ∧ Instr.poolStat ≠ .sysReset ∧
    validParams (after (exec .poolFree crReady)).cfg = true ∧ (after (exec .poolFree crReady)).phase = .idle ∧
    (after (exec .poolFree crReady)).host = [] ∧ ((after (exec .poolFree crReady)).withFetchWord 32 0x7E).phase = .issued ∧
    ((after (exec .poolFree crReady)).withFetchWord 32 0x7E).cmd ≠ 0x7F#32 := by decide +kernel
theorem witness_OnlyResetLeavesHalt : (after (exec .poolFree crReady)).halted = true ∧
    answers (step ((after (exec .poolFree crReady)).withFetchWord 32 0x7F)) = true ∧
    answers (step { after (exec .poolFree crReady) with host := [.extReset] }) = true ∧
    answers (step (after (exec .poolFree crReady))) = true := by decide +kernel
/-- A spinning wait that the host lets read once more, and the external reset after a last device step (R164, R340, R349). -/
def crSpin (h : List HostAction) : State := { crSent with
  a0 := 0#64, cmd := 0x13#32, phase := .running, host := h
  env := { crSent.env with sched := [[.nicTxdone 0 0 0#3]] } }
theorem test_spin_reset : (after (step { crSpin [.pause, .extReset] with env := State.reset.env })).phase = .running ∧
    (after (step { crSpin [.pause, .extReset] with env := State.reset.env })).host = [.extReset] ∧
    (after (step (crSpin [.extReset]))).inited = false ∧
    ((after (step (crSpin [.extReset]))).mem.load 0x200C#64 4).getLsbD 0 = true := by decide +kernel
theorem witness_ResetGivesResetValues : validParams crReady.cfg = true ∧ crReady.phase ≠ .issued ∧
    ({ crReady with host := [.extReset] }).env.sched = [] := by decide +kernel
theorem witness_RingOperationGates : (classic 0#64 0#64 0#64).halted = false ∧ (classic 0#64 0#64 0#64).inited = false ∧
    (classic 0#64 0#64 0#64).cfg.family = .classic ∧ (tokenFresh []).cfg.family = .token ∧ (tokenFresh []).inited = false ∧
    QN crReady.cfg ≤ 1 ∧ crReady.inited = true := by decide +kernel

/-- A frame of two bytes. -/
def frame1 : RxFrame := ⟨0xABCD00000000#64, 0#16, 2#16, 0#12, 0#18, 1#1, [8#8, 9#8]⟩
theorem frame1_outside : ∀ k < min frame1.len.toNat crReady.pool.esz.toNat, ∀ j < 16,
    (crReady.mem.load 0x1000#64 8 + BitVec.ofNat 64 k).toNat ≠ (0x1000#64 + BitVec.ofNat 64 j).toNat := by decide +kernel
theorem witness_NicWritesBackArmedSlot : slotAt (crReady.queue 0).rxBuf (crReady.devRxNext 0).toNat = some 0 ∧
    (crReady.entry 0).tag = .hw ∧ (crReady.mem.load (rxd crReady.cfg 0 (crReady.devRxNext 0).toNat + 8#64) 8).getLsbD 0 = false ∧
    crThree.rxArmed 0 (crThree.devRxNext 0).toNat = false ∧ crReady.nic.work = none ∧
    (envStep crReady (.nicRxBegin 0 frame1)).nic.work ≠ none := by decide +kernel
theorem witness_NicWritesBackArmedSlot_torn (x : Nat)
    (h : inBytes (crReady.mem.load 0x1000#64 8) (min frame1.len.toNat crReady.pool.esz.toNat) x) : ¬ inBytes 0x1000#64 16 x := by
  intro h'
  obtain ⟨k, hk, e⟩ := h
  obtain ⟨j, hj, e'⟩ := h'
  exact frame1_outside k hk j hj (e.symm.trans e')
/-- A half-written descriptor (R355): between the two words `RXD.RSSHASH` sees the new one and `RXD.DD` the old one. -/
theorem test_torn_view :
    let s := [.nicRxBegin 0 frame1, .nicWrite 0, .nicWrite 0, .nicWrite 0].foldl envStep { crReady with a0 := 0#64 }
    (after (exec (.rxdRsshash 0) s)).v0 = 0xABCD#64 ∧ (after (exec (.rxdDd 0) s)).v0 = 0#64 ∧ s.mem.get 0x80000001 = 9#8 ∧
      (after (exec (.rxdDd 0) (envStep s (.nicWrite 0)))).v0 = 1#64 := by decide +kernel
theorem witness_NicReportsSentSlot : slotAt (crSent.queue 0).txBuf 0 = some 4 ∧ (crSent.entry 4).tag = .hw ∧
    (crSent.mem.load (txd crSent.cfg 0 0 + 12#64) 4).getLsbD 0 = false ∧ crDone.txPending 0 0 = false ∧ crSent.nic.work = none := by
  decide +kernel
/-- The host holds the last byte of a lent entry, and not the byte after it. -/
theorem witness_HostActsBetweenOperations : validParams crLent.cfg = true ∧ crLent.phase = .idle ∧ crLent.env.sched = [] ∧
    ({ crLent with host := [.storeByte (crLent.ptrOf 4 + 2047#64) 1#8] } : State).host =
      HostAction.storeByte (crLent.ptrOf 4 + BitVec.ofNat 64 2047) 1#8 :: [] ∧
    crLent.poolFits ∧ crLent.pool.present = true ∧ 4 < crLent.pool.n.toNat ∧ (crLent.entry 4).tag = .swStack ∧
    2047 < crLent.pool.esz.toNat ∧ (crLent.entry 4).cap = crLent.pool.esz.setWidth 64 ∧
    crLent.hostHolds (crLent.ptrOf 4 + 2048#64) = false := by
  unfold State.poolFits; decide +kernel
theorem witness_TransportDeviceCompletes : trReady.transport.rxInflight[3]? = some ⟨3, 3⟩ ∧
    trReady.cfg.tokHdrLen.toNat + (1514#64 : Word).toNat ≤ trReady.pool.esz.toNat ∧ trReady.transport.rxInflight.length ≤ 4 ∧
    (after (exec .trTx trLent)).transport.txInflight[0]? = some ⟨0, 7, 72⟩ ∧ trReady.transport.txInflight.length ≤ 0 := by
  decide +kernel

theorem witness_StepKeepsMemoryCanonical : crThree.mem.wf = true ∧
    answers (step (crThree.withFetchWord 32 0x32)) = true := by decide +kernel
theorem witness_StepKeepsCodesAndSizes : crThree.codesOk ∧ crThree.sizesOk ∧ answers (step (crThree.withFetchWord 32 0x32)) = true :=
  ⟨crThree_inv.codes, crThree_inv.sizes, by decide +kernel⟩
theorem witness_StepKeepsInvariant : (crThree.withFetchWord 32 0x32).Inv ∧ answers (step (crThree.withFetchWord 32 0x32)) = true :=
  ⟨inv_of_check (by decide +kernel), by decide +kernel⟩
theorem witness_StepKeepsTokenAgreement : (trLent.withFetchWord 32 0x45).Inv ∧ (trLent.withFetchWord 32 0x45).tokensOk ∧
    answers (step (trLent.withFetchWord 32 0x45)) = true :=
  ⟨inv_of_check (by decide +kernel), tokensOk_of_check (by decide +kernel), by decide +kernel⟩
theorem witness_BlockNeverStops : (trLent.withFetchWord 32 0x45).Inv ∧ (trLent.withFetchWord 32 0x45).tokensOk :=
  ⟨inv_of_check (by decide +kernel), tokensOk_of_check (by decide +kernel)⟩
theorem witness_PowerOnMeetsInvariants : validParams tokenParams = true ∧ Memory.wf [(0x1000, 1#8)] = true := by decide +kernel

end Sys2Proof.Tests
end

section
/-! Lists of slots and records: what a change of one slot or of one record does to what they hold, by counting, and to their sizes. -/

namespace Sys2Proof.Machine

/-! ## One record of a list -/

/-- A property of every record survives the change of one record that keeps it. -/
theorem forall_mem_modify {α : Type} {P : α → Prop} {l : List α} {k : Nat} {f : α → α} (h : ∀ x ∈ l, P x)
    (hf : ∀ x, l[k]? = some x → P (f x)) : ∀ x ∈ l.modify k f, P x := by
  intro x hx
  obtain ⟨m, hm⟩ := List.mem_iff_getElem?.mp hx
  rw [List.getElem?_modify] at hm
  obtain ⟨y, hy, rfl⟩ := Option.map_eq_some_iff.mp hm
  split
  · next e => exact hf y (e ▸ hy)
  · exact h y (List.mem_of_getElem? hy)

/-- A property of every element survives the overwriting of one element by one that has it. -/
theorem forall_mem_set {α : Type} {P : α → Prop} {l : List α} (k : Nat) {v : α} (h : ∀ x ∈ l, P x) (hv : P v) :
    ∀ x ∈ l.set k v, P x := by
  intro x hx
  rcases List.mem_or_eq_of_mem_set hx with hm | rfl
  · exact h x hm
  · exact hv

/-- What a list of records holds in all, when one record changes: what that record held goes, what it now holds comes. -/
theorem count_flatMap_modify {α : Type} (g : α → List Nat) (f : α → α) (j : Nat) {l : List α} {k : Nat} {x : α}
    (h : l[k]? = some x) :
    ((l.modify k f).flatMap g).count j + (g x).count j = (l.flatMap g).count j + (g (f x)).count j := by
  induction l generalizing k with
  | nil => simp at h
  | cons y l ih =>
    cases k with
    | zero =>
      obtain rfl : y = x := by simpa using h
      simp only [List.modify_zero_cons, List.flatMap_cons, List.count_append]
      omega
    | succ k =>
      have := ih (k := k) (by simpa using h)
      simp only [List.modify_succ_cons, List.flatMap_cons, List.count_append]
      omega

/-! ## One slot of a slot array -/

theorem slotAt_set_self {l : List (Option Nat)} {k : Nat} (h : k < l.length) (v : Option Nat) : slotAt (l.set k v) k = v := by
  simp [slotAt, h]

theorem slotAt_set_ne {l : List (Option Nat)} {k m : Nat} (h : m ≠ k) (v : Option Nat) : slotAt (l.set k v) m = slotAt l m := by
  simp [slotAt, Ne.symm h]

/-- Emptying a slot: that slot is empty, in an array of any length. -/
theorem slotAt_set_none_self (l : List (Option Nat)) (k : Nat) : slotAt (l.set k none) k = none := by
  by_cases h : k < l.length <;> simp [slotAt, h]

theorem lt_length_of_slotAt {l : List (Option Nat)} {k i : Nat} (h : slotAt l k = some i) : k < l.length := by
  by_contra hk
  simp [slotAt, List.getElem?_eq_none (Nat.le_of_not_lt hk)] at h

theorem mem_present_of_slotAt {l : List (Option Nat)} {k i : Nat} (h : slotAt l k = some i) : i ∈ present l := by
  have hk := lt_length_of_slotAt h
  have : some i ∈ l := by
    rw [← h]
    simp [slotAt, hk]
  simpa [present] using this

/-- Every slot of the array is empty exactly when each slot reads as empty. -/
theorem forall_mem_none_iff (l : List (Option Nat)) : (∀ o ∈ l, o = none) ↔ ∀ k, slotAt l k = none := by
  constructor
  · intro h k
    by_cases hk : k < l.length
    · simpa [slotAt, hk] using h _ (List.getElem_mem hk)
    · simp [slotAt, List.getElem?_eq_none (Nat.le_of_not_lt hk)]
  · intro h o ho
    obtain ⟨k, hk, rfl⟩ := List.getElem_of_mem ho
    simpa [slotAt, hk] using h k

theorem present_eq_nil {l : List (Option Nat)} (h : ∀ o ∈ l, o = none) : present l = [] := by
  simp only [present, List.filterMap_eq_nil_iff]
  exact h

/-- Emptying a slot that is empty changes nothing. -/
theorem set_none_of_slotAt_none {l : List (Option Nat)} {k : Nat} (h : slotAt l k = none) : l.set k none = l := by
  by_cases hk : k < l.length
  · have : l[k] = none := by simpa [slotAt, hk] using h
    rw [← this, List.set_getElem_self]
  · exact List.set_eq_of_length_le (Nat.le_of_not_lt hk)

/-- What a slot array holds when one slot changes: what the slot held goes, what it now holds comes. -/
theorem count_present_set (j : Nat) (v : Option Nat) {l : List (Option Nat)} {k : Nat} (h : k < l.length) :
    (present (l.set k v)).count j + (slotAt l k).toList.count j = (present l).count j + v.toList.count j := by
  have cons : ∀ (o : Option Nat) (l : List (Option Nat)), present (o :: l) = o.toList ++ present l := by
    intro o l; cases o <;> simp [present]
  induction l generalizing k with
  | nil => simp at h
  | cons o l ih =>
    cases k with
    | zero =>
      simp only [List.set_cons_zero, cons, List.count_append, slotAt, List.getD_cons_zero]
      omega
    | succ k =>
      have := ih (k := k) (by simpa using h)
      simp only [List.set_cons_succ, cons, List.count_append, slotAt, List.getD_cons_succ] at this ⊢
      omega

/-- A slot array with an empty slot holds fewer buffers than it has slots. -/
theorem length_present_lt {l : List (Option Nat)} {k : Nat} (hk : k < l.length) (h : slotAt l k = none) :
    (present l).length < l.length := by
  have hm : none ∈ l := by
    rw [← h]
    simp [slotAt, hk]
  refine lt_of_le_of_ne (List.length_filterMap_le _ _) fun e => ?_
  have := List.filterMap_length_eq_length.mp e none hm
  simp at this

end Sys2Proof.Machine
end

section
/-! What the world around the block may do while an operation runs (R79, R295): the memory keeps its form, the device its ranges, the
transport its tokens and their entries. `EnvChange` says so of two states whose block is the same; it holds of every turn of the
environment, every memory access and every draw, and it does not see the block's own updates. -/

namespace Sys2Proof.Machine

/-- The memory, the device and the transport of `t` come from those of `s` by accesses and device steps, with rings of `qs` slots:
canonical memory stays canonical, `dev_rx_next` keeps its size and range (R280), the transport holds the same tokens with the same
entries (R295). -/
structure Evolves (qs : Nat) (s t : State) : Prop where
  memory : s.mem.wf = true → t.mem.wf = true
  nicLength : t.nic.rxNext.length = s.nic.rxNext.length
  nicRange : 0 < qs → (∀ d ∈ s.nic.rxNext, d.toNat < qs) → ∀ d ∈ t.nic.rxNext, d.toNat < qs
  rxHeld : t.transport.rxHeld.Perm s.transport.rxHeld
  txHeld : t.transport.txHeld.Perm s.transport.txHeld

theorem Evolves.trans {qs : Nat} {s t u : State} (h : Evolves qs s t) (k : Evolves qs t u) : Evolves qs s u where
  memory m := k.memory (h.memory m)
  nicLength := k.nicLength.trans h.nicLength
  nicRange q r := k.nicRange q (h.nicRange q r)
  rxHeld := k.rxHeld.trans h.rxHeld
  txHeld := k.txHeld.trans h.txHeld

/-- `t` is `s` but for the memory, the agents and their coming choices, and those have evolved as they may. -/
structure EnvChange (s t : State) : Prop where
  same : t = { s with mem := t.mem, nic := t.nic, transport := t.transport, env := t.env }
  evolves : Evolves (QS s.cfg) s t

namespace EnvChange
variable {s t u : State}

theorem cfg (h : EnvChange s t) : t.cfg = s.cfg := by rw [h.same]
theorem halted (h : EnvChange s t) : t.halted = s.halted := by rw [h.same]
theorem inited (h : EnvChange s t) : t.inited = s.inited := by rw [h.same]
theorem queues (h : EnvChange s t) : t.queues = s.queues := by rw [h.same]
theorem pool (h : EnvChange s t) : t.pool = s.pool := by rw [h.same]
theorem token (h : EnvChange s t) : t.token = s.token := by rw [h.same]

theorem queue (h : EnvChange s t) (q : Nat) : t.queue q = s.queue q := by rw [State.queue, h.queues]; rfl
theorem entry (h : EnvChange s t) (i : Nat) : t.entry i = s.entry i := by rw [State.entry, h.pool]; rfl
theorem lease (h : EnvChange s t) : t.lease = s.lease := by rw [State.lease, h.pool, h.cfg]; rfl
theorem physOf (h : EnvChange s t) (i : Nat) : t.physOf i = s.physOf i := by rw [State.physOf, h.pool, h.cfg]; rfl

/-- Only the memory, the device's work and the coming choices differ, and the memory keeps its form. -/
theorem of_access (same : t = { s with mem := t.mem, nic := t.nic, env := t.env }) (hm : s.mem.wf = true → t.mem.wf = true)
    (hn : t.nic.rxNext = s.nic.rxNext) : EnvChange s t where
  same := by rw [same]
  evolves := ⟨hm, by rw [hn], fun _ h => by rwa [hn], by rw [same], by rw [same]⟩

/-- Only the coming choices of the environment differ. -/
theorem of_env (h : t = { s with env := t.env }) : EnvChange s t :=
  of_access (by rw [h]) (by rw [h]; exact id) (by rw [h])

theorem refl (s : State) : EnvChange s s := of_env rfl

theorem trans (h : EnvChange s t) (k : EnvChange t u) : EnvChange s u where
  same := by rw [k.same, h.same]
  evolves := h.evolves.trans (h.cfg ▸ k.evolves)

/-- Storing a device's next slot that is in range (R280), after a write. -/
theorem of_rxNext {q n : Nat} {m : Memory} {w : Option NicWork} (hm : s.mem.wf = true → m.wf = true)
    (hn : 0 < QS s.cfg → n < QS s.cfg) :
    EnvChange s { s with mem := m, nic := { rxNext := s.nic.rxNext.set q (BitVec.ofNat 16 n), work := w } } where
  same := rfl
  evolves := ⟨hm, List.length_set, fun hq h => forall_mem_set q h (lt_of_le_of_lt (by
    rw [BitVec.toNat_ofNat]; exact Nat.mod_le _ _) (hn hq)), .refl _, .refl _⟩

/-! ### The block's own updates do not see the environment -/

theorem setEnt (h : EnvChange s t) (i : Nat) (f : Entry → Entry) : EnvChange (s.setEnt i f) (t.setEnt i f) where
  same := by rw [h.same]; rfl
  evolves := ⟨h.evolves.1, h.evolves.2, h.evolves.3, h.evolves.4, h.evolves.5⟩

theorem setQueue (h : EnvChange s t) (q : Nat) (f : Queue → Queue) : EnvChange (s.setQueue q f) (t.setQueue q f) where
  same := by rw [h.same]; rfl
  evolves := ⟨h.evolves.1, h.evolves.2, h.evolves.3, h.evolves.4, h.evolves.5⟩

theorem setTag (h : EnvChange s t) (i : Nat) (x : Tag) : EnvChange (s.setTag i x) (t.setTag i x) := h.setEnt i _

/-- A change of the environment after the change of an entry could have come before it. -/
theorem exists_of_setEnt {i : Nat} {f : Entry → Entry} (h : EnvChange (s.setEnt i f) t) : ∃ u, EnvChange s u ∧ t = u.setEnt i f :=
  ⟨{ s with mem := t.mem, nic := t.nic, transport := t.transport, env := t.env },
    ⟨rfl, ⟨h.evolves.1, h.evolves.2, h.evolves.3, h.evolves.4, h.evolves.5⟩⟩, h.same⟩

/-- A change of the environment after the change of an rx slot array could have come before it. -/
theorem exists_of_setRxBuffer {k : Nat} {v : Option Nat} (h : EnvChange (s.setRxBuffer k v) t) :
    ∃ u, EnvChange s u ∧ t = u.setRxBuffer k v :=
  ⟨{ s with mem := t.mem, nic := t.nic, transport := t.transport, env := t.env },
    ⟨rfl, ⟨h.evolves.1, h.evolves.2, h.evolves.3, h.evolves.4, h.evolves.5⟩⟩, h.same⟩

/-- A change of the environment after the change of a tx slot array could have come before it. -/
theorem exists_of_setTxBuffer {k : Nat} {v : Option Nat} (h : EnvChange (s.setTxBuffer k v) t) :
    ∃ u, EnvChange s u ∧ t = u.setTxBuffer k v :=
  ⟨{ s with mem := t.mem, nic := t.nic, transport := t.transport, env := t.env },
    ⟨rfl, ⟨h.evolves.1, h.evolves.2, h.evolves.3, h.evolves.4, h.evolves.5⟩⟩, h.same⟩

end EnvChange

/-! ## Device steps and turns -/

theorem nicWrite_envChange (k : Nat) (s : State) : EnvChange s (nicWrite k s) := by
  unfold nicWrite
  split
  · exact .refl s
  · exact .of_access rfl (fun h => Memory.wf_storeBytes h _ _) rfl
  · exact .of_access rfl (fun h => Memory.wf_store h _ _ _) rfl
  · exact .of_rxNext (fun h => Memory.wf_store h _ _ _) (Nat.mod_lt _)
  · exact .of_access rfl (fun h => Memory.wf_store h _ _ _) rfl

theorem nicRxBegin_envChange (q : Nat) (f : RxFrame) (s : State) : EnvChange s (nicRxBegin q f s) := by
  simp only [nicRxBegin]
  split
  · exact .of_access rfl id rfl
  · exact .refl s

theorem nicTxBegin_envChange (q slot : Nat) (sta : BitVec 3) (s : State) : EnvChange s (nicTxBegin q slot sta s) := by
  simp only [nicTxBegin]
  split
  · exact .of_access rfl id rfl
  · exact .refl s

/-- Moving the `k`-th element of one list to the end of another keeps what both hold. -/
theorem perm_eraseIdx_append {α : Type} {l m : List α} {k : Nat} {x : α} (h : l[k]? = some x) :
    (l.eraseIdx k ++ (m ++ [x])).Perm (l ++ m) := by
  obtain ⟨hk, rfl⟩ := List.getElem?_eq_some_iff.mp h
  have front : (l[k] :: l.eraseIdx k).Perm l := List.getElem_cons_eraseIdx_perm hk
  calc (l.eraseIdx k ++ (m ++ [l[k]])).Perm (l.eraseIdx k ++ ([l[k]] ++ m)) := .append_left _ List.perm_append_comm
    _ = (l.eraseIdx k ++ [l[k]]) ++ m := by simp
    _ |>.Perm (l ++ m) := .append_right _ (List.perm_append_comm.trans front)

theorem vqDevrx_envChange (k : Nat) (len : Word) (bytes : List Byte) (s : State) : EnvChange s (vqDevrx k len bytes s) := by
  simp only [vqDevrx]
  split
  · exact .refl s
  · next x hx =>
    split
    · refine ⟨rfl, fun h => Memory.wf_storeBytes h _ _, rfl, fun _ => id, ?_, .refl _⟩
      simp only [Transport.rxHeld, List.map_append, List.map_cons, List.map_nil]
      rw [← List.eraseIdx_map]
      exact perm_eraseIdx_append (by simp [hx])
    · exact .refl s

theorem vqDevtx_envChange (k : Nat) (s : State) : EnvChange s (vqDevtx k s) := by
  simp only [vqDevtx]
  split
  · exact .refl s
  · next x hx =>
    refine ⟨rfl, id, rfl, fun _ => id, .refl _, ?_⟩
    simp only [Transport.txHeld, List.map_append, List.map_cons, List.map_nil]
    rw [← List.eraseIdx_map]
    exact perm_eraseIdx_append (by simp [hx])

theorem envStep_envChange (s : State) (e : EnvStep) : EnvChange s (envStep s e) := by
  cases e with
  | nicRxBegin q f => exact nicRxBegin_envChange q f s
  | nicTxBegin q slot sta => exact nicTxBegin_envChange q slot sta s
  | nicWrite k => exact nicWrite_envChange k s
  | nicRxwb q f =>
    simp only [envStep, nicRxwb]
    split
    · exact (((nicRxBegin_envChange q f s).trans (nicWrite_envChange _ _)).trans (nicWrite_envChange _ _)).trans
        (nicWrite_envChange _ _)
    · exact .refl s
  | nicTxdone q slot sta =>
    simp only [envStep, nicTxdone]
    split
    · exact (nicTxBegin_envChange q slot sta s).trans (nicWrite_envChange _ _)
    · exact .refl s
  | vqDevrx k len bytes => exact vqDevrx_envChange k len bytes s
  | vqDevtx k => exact vqDevtx_envChange k s

theorem State.envTurn_envChange (s : State) : EnvChange s s.envTurn := by
  have steps : ∀ (es : List EnvStep) (t : State), EnvChange t (es.foldl envStep t) := by
    intro es
    induction es with
    | nil => exact .refl
    | cons e es ih => exact fun t => (envStep_envChange t e).trans (ih _)
  unfold State.envTurn
  split
  · exact .refl s
  · exact (EnvChange.of_env rfl).trans (steps _ _)

/-! ## Accesses, draws and the calls that only ask -/

theorem State.memWrite_envChange (s : State) (a : Addr) (n : Nat) (v : Word) : EnvChange s (s.memWrite a n v) :=
  s.envTurn_envChange.trans (.of_access rfl (fun h => Memory.wf_store h _ _ _) rfl)

theorem State.rxInit_envChange (s : State) (d : Addr) : EnvChange s (s.rxInit d) :=
  (s.memWrite_envChange _ _ _).trans (memWrite_envChange _ _ _ _)

theorem State.rxSetAddr_envChange (s : State) (d : Addr) (a : Word) : EnvChange s (s.rxSetAddr d a) := s.memWrite_envChange _ _ _

theorem State.rxRstStat_envChange (s : State) (d : Addr) : EnvChange s (s.rxRstStat d) := s.memWrite_envChange _ _ _

theorem State.txInit_envChange (s : State) (d : Addr) : EnvChange s (s.txInit d) :=
  ((((s.memWrite_envChange _ _ _).trans (memWrite_envChange _ _ _ _)).trans (memWrite_envChange _ _ _ _)).trans
    (memWrite_envChange _ _ _ _)).trans (memWrite_envChange _ _ _ _)

theorem State.txSend_envChange (s : State) (d : Addr) (a l : Word) : EnvChange s (s.txSend d a l) :=
  ((((s.memWrite_envChange _ _ _).trans (memWrite_envChange _ _ _ _)).trans (memWrite_envChange _ _ _ _)).trans
    (memWrite_envChange _ _ _ _)).trans (memWrite_envChange _ _ _ _)

theorem State.askBacking_envChange (s : State) (bytes : Nat) : EnvChange s (s.askBacking bytes).2 :=
  .of_env (s.askBacking_frame bytes)

theorem State.drawContents_envChange (s : State) (bytes : Nat) : EnvChange s (s.drawContents bytes) :=
  .of_access rfl (fun h => Memory.wf_storeBytes h _ _) rfl

theorem State.fillHeader_envChange (s : State) (i : Nat) : EnvChange s (s.fillHeader i).2 :=
  s.envTurn_envChange.trans (.of_access rfl (fun h => Memory.wf_storeBytes h _ _) rfl)

theorem State.nextBegin_envChange (s : State) : EnvChange s s.nextBegin.2 := .of_env s.nextBegin_frame

/-! ## The calls that begin or complete a transfer (R287, R289, R290, R292) -/

/-- The transport with one more receive token in flight. -/
def Transport.beginRx (t : Transport) (tok i : Nat) : Transport :=
  { t with rxInflight := t.rxInflight ++ [⟨tok, i⟩], rxCount := t.rxCount + 1 }

/-- The transport with one more transmit token in flight. -/
def Transport.beginTx (t : Transport) (tok i nbytes : Nat) : Transport :=
  { t with txInflight := t.txInflight ++ [⟨tok, i, nbytes⟩], txCount := t.txCount + 1 }

/-- The transport with its oldest receive completion consumed. -/
def Transport.consumeRx (t : Transport) : Transport := { t with rxUsed := t.rxUsed.tail, rxConsumed := true }

/-- The transport with its oldest transmit completion consumed. -/
def Transport.consumeTx (t : Transport) : Transport := { t with txUsed := t.txUsed.tail, txConsumed := true }

/-- What `T.receive_begin` does: no more than its turn and its draw where it is full, and else one token more in flight. -/
theorem State.receiveBegin_cases (s : State) (i : Nat) :
    ((s.receiveBegin i).1 = .full ∧ EnvChange s (s.receiveBegin i).2) ∨
    ∃ tok u, (s.receiveBegin i).1 = .ok tok ∧ EnvChange s u ∧
      (s.receiveBegin i).2 = { u with transport := u.transport.beginRx tok i } := by
  have asked : EnvChange s s.envTurn.nextBegin.2 := s.envTurn_envChange.trans (nextBegin_envChange _)
  simp only [State.receiveBegin]
  split
  · exact Or.inl ⟨rfl, asked⟩
  · exact Or.inr ⟨_, _, rfl, asked, by rw [State.nextBegin_frame]; rfl⟩

/-- What `T.transmit_begin` does. -/
theorem State.transmitBegin_cases (s : State) (i nbytes : Nat) :
    ((s.transmitBegin i nbytes).1 = .full ∧ EnvChange s (s.transmitBegin i nbytes).2) ∨
    ∃ tok u, (s.transmitBegin i nbytes).1 = .ok tok ∧ EnvChange s u ∧
      (s.transmitBegin i nbytes).2 = { u with transport := u.transport.beginTx tok i nbytes } := by
  have asked : EnvChange s s.envTurn.nextBegin.2 := s.envTurn_envChange.trans (nextBegin_envChange _)
  simp only [State.transmitBegin]
  split
  · exact Or.inl ⟨rfl, asked⟩
  · exact Or.inr ⟨_, _, rfl, asked, by rw [State.nextBegin_frame]; rfl⟩

end Sys2Proof.Machine
end

section
/-! The invariants of the block, one part at a time: ownership as a count of places, the invariant of a block that runs (`State.Live`), and
that they see nothing but the block: states that are alike keep them. -/

namespace Sys2Proof.Machine

/-! ## Entries -/

theorem State.entry_of_le {s : State} {i : Nat} (h : s.pool.ent.length ≤ i) : s.entry i = {} := by
  simp [State.entry, List.getD, List.getElem?_eq_none h]

/-- An entry with a tag other than the default one is a record of the pool. -/
theorem State.lt_of_tag {s : State} {i : Nat} (h : (s.entry i).tag ≠ .free) : i < s.pool.ent.length := by
  by_contra hi
  exact h (by rw [State.entry_of_le (Nat.le_of_not_lt hi)])

theorem State.entry_setEnt {s : State} {i : Nat} (h : i < s.pool.ent.length) (f : Entry → Entry) (j : Nat) :
    (s.setEnt i f).entry j = if j = i then f (s.entry i) else s.entry j := by
  split
  · next e => rw [e, State.entry_setEnt_self h]
  · next e => exact State.entry_setEnt_ne e f

/-! ## Queues -/

theorem State.getElem?_queue {s : State} {q : Nat} (h : q < s.queues.length) : s.queues[q]? = some (s.queue q) := by
  simp [State.queue, List.getD, List.getElem?_eq_getElem h]

theorem State.queue_mem {s : State} {q : Nat} (h : q < s.queues.length) : s.queue q ∈ s.queues :=
  List.mem_of_getElem? (State.getElem?_queue h)

/-- A property of every queue's record survives the change of one record that keeps it. -/
theorem State.forall_mem_setQueue {s : State} {q : Nat} {f : Queue → Queue} {P : Queue → Prop} (h : ∀ r ∈ s.queues, P r)
    (hf : P (s.queue q) → P (f (s.queue q))) : ∀ r ∈ (s.setQueue q f).queues, P r := by
  refine forall_mem_modify h fun x hx => ?_
  have hq : q < s.queues.length := (List.getElem?_eq_some_iff.mp hx).1
  obtain rfl : s.queue q = x := by rw [State.getElem?_queue hq] at hx; simpa using hx
  exact hf (h _ (State.queue_mem hq))

/-! ## Ownership by counting -/

/-- The buffers in the slots of a queue. -/
def Queue.slots (r : Queue) : List Nat := present r.rxBuf ++ present r.txBuf

/-- R38, R43, R47 by counting: an entry stands in one slot or under one token where it is tagged `Hw`, in one list of the driver where it
is tagged `SwDriver`, and nowhere else. -/
def State.owned (s : State) : Prop := ∀ j,
  s.installed.count j = (if (s.entry j).tag = .hw then 1 else 0) ∧
  s.held.count j = (if (s.entry j).tag = .swDriver then 1 else 0)

/-- An initialised classic ring has a buffer at every Rx slot (R40). -/
def State.fullRx (s : State) : Prop :=
  s.cfg.family = .classic → s.inited = true → ∀ r ∈ s.queues, ∀ o ∈ r.rxBuf, o ≠ none

theorem State.owned_hw_iff {s : State} (h : s.owned) (j : Nat) : (s.entry j).tag = .hw ↔ j ∈ s.installed := by
  rw [← List.count_pos_iff, (h j).1]
  split <;> simp_all

theorem State.owned_swDriver_iff {s : State} (h : s.owned) (j : Nat) : (s.entry j).tag = .swDriver ↔ j ∈ s.held := by
  rw [← List.count_pos_iff, (h j).2]
  split <;> simp_all

/-- The ownership of a running block is the count of its places. -/
theorem State.ownOk_iff (s : State) : s.ownOk ↔ (s.halted = false → s.owned ∧ s.fullRx) := by
  unfold State.ownOk
  refine forall_congr' fun _ => ⟨?_, ?_⟩
  · rintro ⟨tags, bound, nodup, full⟩
    obtain ⟨nodupI, nodupH, -⟩ := List.nodup_append.mp nodup
    refine ⟨fun j => ?_, full⟩
    by_cases hj : j < s.pool.ent.length
    · rw [nodupI.count, nodupH.count]
      simp only [tags j hj, and_self]
    · have out : j ∉ s.installed ++ s.held := fun hm => hj (bound j hm)
      rw [List.mem_append, not_or] at out
      rw [List.count_eq_zero.mpr out.1, List.count_eq_zero.mpr out.2, State.entry_of_le (Nat.le_of_not_lt hj)]
      simp
  · rintro ⟨owned, full⟩
    refine ⟨fun i _ => ⟨owned_hw_iff owned i, owned_swDriver_iff owned i⟩, fun i hi => ?_, ?_, full⟩
    · apply State.lt_of_tag
      rcases List.mem_append.mp hi with hm | hm
      · rw [(owned_hw_iff owned i).mpr hm]; simp
      · rw [(owned_swDriver_iff owned i).mpr hm]; simp
    · refine List.nodup_iff_count_le_one.mpr fun j => ?_
      rw [List.count_append, (owned j).1, (owned j).2]
      cases (s.entry j).tag <;> simp

/-! ## Recorded handles, entry by entry -/

/-- What the record of entry `i` says of its handle (R35). -/
def State.wireOk (s : State) (i : Nat) (e : Entry) : Prop :=
  (e.tag = .swStack → e.wire = some (s.handleOf i e.hdrLen e.pktLen) ∧ e.cap = s.pool.esz.setWidth 64) ∧
    (e.tag ≠ .swStack → e.wire = none)

theorem State.wireOk_entry {s : State} (h : s.wiresOk) (i : Nat) : s.wireOk i (s.entry i) := by
  by_cases hi : i < s.pool.ent.length
  · exact h i hi
  · rw [State.entry_of_le (Nat.le_of_not_lt hi)]
    exact ⟨nofun, fun _ => rfl⟩

/-- An entry that is not with the stack may take any record without a handle. -/
theorem State.wireOk_of_none {s : State} {i : Nat} {e : Entry} (ht : e.tag ≠ .swStack) (hw : e.wire = none) : s.wireOk i e :=
  ⟨fun h => absurd h ht, fun _ => hw⟩

theorem State.wire_none {s : State} (h : s.wiresOk) {i : Nat} (ht : (s.entry i).tag ≠ .swStack) : (s.entry i).wire = none :=
  (State.wireOk_entry h i).2 ht

/-- Changing one entry keeps the handles where the new record says what it must. -/
theorem State.wiresOk_setEnt {s : State} {i : Nat} {f : Entry → Entry} (h : s.wiresOk) (hf : s.wireOk i (f (s.entry i))) :
    (s.setEnt i f).wiresOk := by
  intro j hj
  have hj' : j < s.pool.ent.length := by simpa using hj
  by_cases e : j = i
  · subst e
    rw [State.entry_setEnt_self hj']
    exact hf
  · rw [State.entry_setEnt_ne e]
    exact h j hj'

/-! ## States with the same block -/

/-- The block of `t` is that of `s` but for registers, and `t` is halted if `s` is; around it the world has evolved as it may. -/
structure Alike (s t : State) : Prop where
  cfg : t.cfg = s.cfg
  queues : t.queues = s.queues
  pool : t.pool = s.pool
  token : t.token = s.token
  inited : t.inited = s.inited
  halted : s.halted = true → t.halted = true
  evolves : Evolves (QS s.cfg) s t

theorem EnvChange.alike {s t : State} (h : EnvChange s t) : Alike s t :=
  ⟨h.cfg, h.queues, h.pool, h.token, h.inited, fun e => h.halted.trans e, h.evolves⟩

/-- Registers, latches up to the halt, and the host's list may differ. -/
theorem Alike.of_registers {s t : State} (h : t = { s with
      a0 := t.a0, a1 := t.a1, a2 := t.a2, v0 := t.v0, v1 := t.v1, v2 := t.v2, cmd := t.cmd, st := t.st, halted := t.halted
      hcause := t.hcause, phase := t.phase, host := t.host })
    (hh : s.halted = true → t.halted = true) : Alike s t := by
  rw [h]
  exact ⟨rfl, rfl, rfl, rfl, rfl, hh, id, rfl, fun _ => id, .refl _, .refl _⟩

theorem Alike.trans {s t u : State} (h : Alike s t) (k : Alike t u) : Alike s u where
  cfg := k.cfg.trans h.cfg
  queues := k.queues.trans h.queues
  pool := k.pool.trans h.pool
  token := k.token.trans h.token
  inited := k.inited.trans h.inited
  halted e := k.halted (h.halted e)
  evolves := h.evolves.trans (h.cfg ▸ k.evolves)

theorem Alike.running {s t : State} (h : Alike s t) (ht : t.halted = false) : s.halted = false := by
  cases hs : s.halted with
  | false => rfl
  | true => rw [h.halted hs] at ht; cases ht

theorem Alike.sizesOk {s t : State} (h : Alike s t) (hq : 0 < QS s.cfg) (k : s.sizesOk) : t.sizesOk := by
  obtain ⟨queues, records, nicLength, nicRange, rest⟩ := k
  unfold State.sizesOk
  rw [h.cfg, h.queues, h.token, h.pool, h.inited]
  exact ⟨queues, records, h.evolves.nicLength.trans nicLength, h.evolves.nicRange hq nicRange, rest⟩

theorem Alike.placedOk {s t : State} (h : Alike s t) (k : s.placedOk) : t.placedOk := by
  unfold State.placedOk
  rw [h.cfg, h.pool]
  exact k

theorem Alike.entry {s t : State} (h : Alike s t) (i : Nat) : t.entry i = s.entry i := by
  rw [State.entry, h.pool]; rfl

theorem Alike.wiresOk {s t : State} (h : Alike s t) (k : s.wiresOk) : t.wiresOk := by
  have handle : ∀ i hdr len, t.handleOf i hdr len = s.handleOf i hdr len := by
    intro i hdr len
    simp only [State.handleOf, State.ptrOf, h.cfg, h.pool]
  intro i hi
  rw [h.pool] at hi ⊢
  simpa only [h.entry, handle] using k i hi

theorem Alike.owned {s t : State} (h : Alike s t) (k : s.owned) : t.owned := by
  intro j
  simpa only [State.installed, State.held, h.queues, h.token, h.entry] using k j

theorem Alike.fullRx {s t : State} (h : Alike s t) (k : s.fullRx) : t.fullRx := by
  unfold State.fullRx
  rw [h.cfg, h.inited, h.queues]
  exact k

theorem Alike.txWindowsOk {s t : State} (h : Alike s t) (k : s.txWindowsOk) : t.txWindowsOk := by
  unfold State.txWindowsOk
  rw [h.queues, h.cfg]
  exact k

theorem Alike.idleOk {s t : State} (h : Alike s t) (k : s.idleOk) : t.idleOk := by
  unfold State.idleOk
  rw [h.cfg, h.queues, h.token, h.inited]
  exact ⟨fun c => k.1 (c.imp_right fun d => ⟨d.1, h.running d.2⟩), fun c => k.2 (c.imp_right fun d => ⟨d.1, h.running d.2⟩)⟩

theorem Alike.tokensOk {s t : State} (h : Alike s t) (k : s.tokensOk) : t.tokensOk := by
  intro ht
  obtain ⟨rx, tx, rxNodup, txNodup⟩ := k (h.running ht)
  rw [h.token]
  refine ⟨fun a i => (rx a i).trans h.evolves.rxHeld.mem_iff.symm, fun a i => (tx a i).trans h.evolves.txHeld.mem_iff.symm, ?_, ?_⟩
  · exact (h.evolves.rxHeld.map _).nodup_iff.mpr rxNodup
  · exact (h.evolves.txHeld.map _).nodup_iff.mpr txNodup

/-- A configuration that may be built gives each ring a slot (R6). -/
theorem validParams_QS_pos {p : Params} (h : validParams p = true) : 0 < QS p := by
  simp only [validParams, Bool.and_eq_true, decide_eq_true_eq] at h
  omega

/-- A state of the invariant and one like it: only the codes are still to be seen to. -/
theorem State.Inv.alike {s t : State} (k : s.Inv) (h : Alike s t) (codes : t.codesOk) : t.Inv where
  valid := by rw [h.cfg]; exact k.valid
  memory := h.evolves.memory k.memory
  codes := codes
  sizes := h.sizesOk (validParams_QS_pos k.valid) k.sizes
  placed := h.placedOk k.placed
  idle := h.idleOk k.idle
  wires := h.wiresOk k.wires
  owns := (State.ownOk_iff t).mpr fun ht =>
    ((State.ownOk_iff s).mp k.owns (h.running ht)).imp h.owned h.fullRx
  windows := h.txWindowsOk k.windows

/-! ## The invariant of a running block -/

/-- No buffer in any place of the queue. -/
def Queue.blank (r : Queue) : Prop := r.rxq = [] ∧ (∀ o ∈ r.rxBuf, o = none) ∧ ∀ o ∈ r.txBuf, o = none

/-- No buffer in any place of the token rings. -/
def TokenRing.blank (t : TokenRing) : Prop := t.freeTx = [] ∧ (∀ o ∈ t.rxBuffers, o = none) ∧ ∀ o ∈ t.txBuffers, o = none

/-- The invariant of a block that is not halted, but for its codes and for the full Rx rings, which `CR.INIT` comes to only at its end. -/
structure State.Live (s : State) : Prop where
  valid : validParams s.cfg = true
  memory : s.mem.wf = true
  sizes : s.sizesOk
  placed : s.placedOk
  wires : s.wiresOk
  owned : s.owned
  windows : s.txWindowsOk
  queuesIdle : s.cfg.family = .token ∨ s.inited = false → ∀ r ∈ s.queues, r.blank
  tokenIdle : s.cfg.family = .classic ∨ s.inited = false → s.token.blank

theorem State.Inv.live {s : State} (h : s.Inv) (hs : s.halted = false) : s.Live where
  valid := h.valid
  memory := h.memory
  sizes := h.sizes
  placed := h.placed
  wires := h.wires
  owned := ((State.ownOk_iff s).mp h.owns hs).1
  windows := h.windows
  queuesIdle c := h.idle.1 (c.imp_right fun i => ⟨i, hs⟩)
  tokenIdle c := h.idle.2 (c.imp_right fun i => ⟨i, hs⟩)

theorem State.Inv.fullRx {s : State} (h : s.Inv) (hs : s.halted = false) : s.fullRx := ((State.ownOk_iff s).mp h.owns hs).2

theorem State.Live.inv {s : State} (h : s.Live) (full : s.fullRx) (codes : s.codesOk) : s.Inv where
  valid := h.valid
  memory := h.memory
  codes := codes
  sizes := h.sizes
  placed := h.placed
  idle := ⟨fun c => h.queuesIdle (c.imp_right And.left), fun c => h.tokenIdle (c.imp_right And.left)⟩
  wires := h.wires
  owns := (State.ownOk_iff s).mpr fun _ => ⟨h.owned, full⟩
  windows := h.windows

theorem State.Live.alike {s t : State} (k : s.Live) (h : Alike s t) : t.Live where
  valid := by rw [h.cfg]; exact k.valid
  memory := h.evolves.memory k.memory
  sizes := h.sizesOk (validParams_QS_pos k.valid) k.sizes
  placed := h.placedOk k.placed
  wires := h.wiresOk k.wires
  owned := h.owned k.owned
  windows := h.txWindowsOk k.windows
  queuesIdle := by rw [h.cfg, h.inited, h.queues]; exact k.queuesIdle
  tokenIdle := by rw [h.cfg, h.inited, h.token]; exact k.tokenIdle

end Sys2Proof.Machine
end

section
/-! What an operation can do, said once: a run of moves of buffers between the places that hold them, and then one of the ways to end.
Every invariant is a statement about these moves; every operation is taken apart into them once (`exec_run`). -/

namespace Sys2Proof.Machine

/-! ## The moves -/

/-- Entry `i` lent to the stack with its handle recorded (R188). -/
def State.lendEnt (s : State) (i : Nat) (hdr len : Word) : State :=
  s.setEnt i (fun _ => ⟨.swStack, hdr, len, s.pool.esz.setWidth 64, some (s.handleOf i hdr len)⟩)

/-- The block initialised (R25). -/
def State.opened (s : State) : State := { s with inited := true }

/-- A change of an entry's record that hands it to the hardware, without a handle (R36). -/
def HandsOver (f : Entry → Entry) : Prop := ∀ e, (f e).tag = .hw ∧ (f e).wire = none

/-- A change of an entry's record that gives it to the driver and leaves its handle as it is (R36). -/
def TakesBack (f : Entry → Entry) : Prop := ∀ e, (f e).tag = .swDriver ∧ (f e).wire = e.wire

/-- The moves of the classic ring driver on queue `q`. `g` stands for what the run began with: where it holds, the guard below it does. -/
inductive ClassicMove (g : Prop) (q : Nat) (s : State) : State → Prop
  /-- the indices and the software queue as `CR.INIT` leaves them (R201) -/
  | restart (empty : g → (s.queue q).rxq = [] ∧ ∀ o ∈ (s.queue q).txBuf, o = none) :
    ClassicMove g q s (s.setQueue q (fun r => { r with rxIndex := 0#16, txIndex := 0#16, txClean := 0#16, rxq := [] }))
  /-- a free entry into an empty Rx slot (R201) -/
  | arm {slot i : Nat} {f : Entry → Entry} (inPool : i < s.pool.ent.length) (free : (s.entry i).tag = .free) (hands : HandsOver f)
    (inRing : slot < QS s.cfg) (empty : g → slotAt (s.queue q).rxBuf slot = none) :
    ClassicMove g q s ((s.setEnt i f).setQueue q (fun r => { r with rxBuf := r.rxBuf.set slot (some i) }))
  /-- a Tx slot that holds nothing, emptied (R201) -/
  | clearTx {slot : Nat} (empty : g → slotAt (s.queue q).txBuf slot = none) :
    ClassicMove g q s (s.setQueue q (fun r => { r with txBuf := r.txBuf.set slot none }))
  /-- the buffer of an Rx slot to the software queue, a free entry into the slot (R205) -/
  | drain {slot i j : Nat} {f h : Entry → Entry} (held : slotAt (s.queue q).rxBuf slot = some i) (takes : TakesBack f)
    (inPool : j < s.pool.ent.length) (free : (s.entry j).tag = .free) (hands : HandsOver h)
    (room : (s.queue q).rxq.length < rxBatchSize) :
    ClassicMove g q s (((s.setEnt i f).setEnt j h).setQueue q
      (fun r => { r with rxq := r.rxq ++ [i], rxBuf := r.rxBuf.set slot (some j), rxIndex := ringNext s.cfg r.rxIndex }))
  /-- the front of the software queue to the stack (R205) -/
  | pop {i : Nat} {rest : List Nat} {hdr len : Word} (front : (s.queue q).rxq = i :: rest) :
    ClassicMove g q s ((s.setQueue q (fun r => { r with rxq := rest })).lendEnt i hdr len)
  /-- an entry of the stack into the free Tx slot at `tx_index` (R208) -/
  | send {i : Nat} {f : Entry → Entry} (lent : (s.entry i).tag = .swStack) (hands : HandsOver f) (room : s.txRoom q = true) :
    ClassicMove g q s ((s.setEnt i f).setQueue q (fun r =>
      { r with txBuf := r.txBuf.set (s.queue q).txIndex.toNat (some i), txIndex := ringNext s.cfg r.txIndex }))
  /-- the buffer of the Tx slot at `tx_clean` back to the pool (R209) -/
  | clean {i : Nat} (held : slotAt (s.queue q).txBuf (s.queue q).txClean.toNat = some i) :
    ClassicMove g q s ((s.release i).setQueue q (fun r =>
      { r with txBuf := r.txBuf.set (s.queue q).txClean.toNat none, txClean := ringNext s.cfg r.txClean }))

/-- The moves of the token ring driver and its transport. -/
inductive TokenMove (g : Prop) (s : State) : State → Prop
  /-- the free-list as `TR.INIT` begins with it (R231) -/
  | restart (empty : g → s.token.freeTx = []) : TokenMove g s (s.setFreeTx [])
  /-- a free entry, or one of the stack, under a new receive token (R231, R234) -/
  | submitRx {tok i : Nat} {f : Entry → Entry} (inPool : i < s.pool.ent.length)
    (mine : (s.entry i).tag = .free ∨ (s.entry i).tag = .swStack) (hands : HandsOver f) (inRing : tok < QS s.cfg)
    (empty : g → slotAt s.token.rxBuffers tok = none) :
    TokenMove g s { (s.setEnt i f).setRxBuffer tok (some i) with transport := s.transport.beginRx tok i }
  /-- an entry of the stack under a new transmit token (R236) -/
  | submitTx {tok i nbytes : Nat} {f : Entry → Entry} (lent : (s.entry i).tag = .swStack) (hands : HandsOver f)
    (inRing : tok < QS s.cfg) (empty : slotAt s.token.txBuffers tok = none) :
    TokenMove g s { (s.setEnt i f).setTxBuffer tok (some i) with transport := s.transport.beginTx tok i nbytes }
  /-- the buffer of the oldest receive completion to the stack (R233) -/
  | completeRx {tok i : Nat} {u : RxDone} {rest : List RxDone} {hdr len : Word} (held : slotAt s.token.rxBuffers tok = some i)
    (used : s.transport.rxUsed = u :: rest) (sameToken : u.tok = tok) (sameEntry : u.entry = i) :
    TokenMove g s { (s.setRxBuffer tok none).lendEnt i hdr len with transport := s.transport.consumeRx }
  /-- the buffer of the oldest transmit completion to the free-list (R237) -/
  | completeTx {tok i : Nat} {u : TxFlight} {rest : List TxFlight} {f : Entry → Entry} (held : slotAt s.token.txBuffers tok = some i)
    (used : s.transport.txUsed = u :: rest) (sameToken : u.tok = tok) (sameEntry : u.entry = i) (takes : TakesBack f) :
    TokenMove g s
      { ((s.setTxBuffer tok none).setEnt i f).setFreeTx (s.token.freeTx ++ [i]) with transport := s.transport.consumeTx }
  /-- a free entry to the free-list (R231) -/
  | fill {i k : Nat} {f : Entry → Entry} (inPool : i < s.pool.ent.length) (free : (s.entry i).tag = .free)
    (takes : ∀ e, (f e).tag = .swDriver ∧ (f e).wire = none) (empty : g → slotAt s.token.txBuffers k = none) :
    TokenMove g s (((s.setEnt i f).setFreeTx (s.token.freeTx ++ [i])).setTxBuffer k none)
  /-- the top of the free-list to the stack (R238) -/
  | alloc {i : Nat} {hdr len : Word} (top : s.token.freeTx.getLast? = some i) :
    TokenMove g s ((s.setFreeTx s.token.freeTx.dropLast).lendEnt i hdr len)

/-- One move of an operation of a block that is not halted. -/
inductive Move (g : Prop) (s : State) : State → Prop
  | env {t : State} (h : EnvChange s t) : Move g s t
  /-- a pool where there is none (R181) -/
  | create {count size : Nat} (absent : s.pool.present = false) (closed : s.inited = false) (countFits : count < 2 ^ 32)
    (sizeFits : size < 2 ^ 32) (nonzero : count = 0 ∨ 0 < size) (room : poolRoom s.cfg (count * size) = true) :
    Move g s { s with pool := Pool.fresh count size }
  /-- a free entry to the stack (R188) -/
  | lend {i : Nat} {hdr len : Word} (inPool : i < s.pool.ent.length) (free : (s.entry i).tag = .free) : Move g s (s.lendEnt i hdr len)
  /-- an entry of the stack back to the pool (R185) -/
  | giveBack {i : Nat} (lent : (s.entry i).tag = .swStack) : Move g s (s.release i)
  | classic {q : Nat} {t : State} (family : s.cfg.family = .classic) (open' : s.inited = true) (inRange : q < QN s.cfg)
    (h : ClassicMove g q s t) : Move g s t
  | token {t : State} (family : s.cfg.family = .token) (open' : s.inited = true) (h : TokenMove g s t) : Move g s t

/-- The moves of one operation. -/
abbrev Moves (g : Prop) : State → State → Prop := Relation.ReflTransGen (Move g)

theorem EnvChange.moves {g : Prop} {s t : State} (h : EnvChange s t) : Moves g s t := .single (.env h)

/-! ## The ends -/

/-- How an operation of a block that is not halted ends. -/
inductive Ends (s : State) : State → Prop
  | finish {k : Kind} (h : k ≠ .badState) : Ends s (s.finish k)
  | ok1 {v : Word} : Ends s (s.ok1 v)
  | ok3 {a b c : Word} : Ends s (s.ok3 a b c)
  | raise {c : Cause} : Ends s (s.raise c)
  /-- a spinning wait goes on (R164) -/
  | spin : Ends s { s with phase := .running }
  /-- a transport that breaks its contract: the entry has been handed over and stands in no slot (R231, R234, R236) -/
  | abandon {i : Nat} {f : Entry → Entry} {tr : Transport} {b : Bool} {c : Cause} (hands : HandsOver f)
    (latch : b = true → s.inited = true) : Ends s { (s.setEnt i f).raise c with transport := tr, inited := b }

/-- An operation other than `SYS.RESET` of a block that is not halted: its moves and its end; the init operations create the pool, and the
rest of their moves are those of an initialised block. -/
inductive Run (g : Prop) (s : State) : State → Prop
  | plain {u t : State} (moves : Moves g s u) (ends : Ends u t) : Run g s t
  | init {u v t : State} (moves : Moves g s u) (pool : u.pool.present = true) (rings : Moves g u.opened v) (full : g → v.fullRx)
    (ends : Ends v t) : Run g s t

theorem Run.of_ends {g : Prop} {s t : State} (h : Ends s t) : Run g s t := .plain .refl h

theorem Run.of_moves {g : Prop} {s t u : State} (m : Moves g s t) (h : Run g t u) : Run g s u := by
  cases h with
  | plain moves ends => exact .plain (m.trans moves) ends
  | init moves pool rings full ends => exact .init (m.trans moves) pool rings full ends

/-! ## What a move leaves unchanged -/

theorem ClassicMove.frame {g : Prop} {q : Nat} {s t : State} (h : ClassicMove g q s t) :
    t = { s with queues := t.queues, pool := { s.pool with ent := t.pool.ent } } := by
  cases h <;> rfl

theorem TokenMove.frame {g : Prop} {s t : State} (h : TokenMove g s t) :
    t = { s with token := t.token, pool := { s.pool with ent := t.pool.ent }, transport := t.transport } := by
  cases h <;> rfl

/-- A move changes rings, pool, memory and agents, and no register or latch. -/
theorem Move.frame {g : Prop} {s t : State} (h : Move g s t) : t = { s with
    queues := t.queues, pool := t.pool, token := t.token, mem := t.mem, nic := t.nic, transport := t.transport, env := t.env } := by
  cases h with
  | env h => rw [h.same]
  | create => rfl
  | lend => rfl
  | giveBack => rfl
  | classic _ _ _ h => rw [h.frame]
  | token _ _ h => rw [h.frame]

theorem Moves.frame {g : Prop} {s t : State} (h : Moves g s t) : t = { s with
    queues := t.queues, pool := t.pool, token := t.token, mem := t.mem, nic := t.nic, transport := t.transport, env := t.env } := by
  induction h with
  | refl => rfl
  | tail _ m ih => rw [m.frame, ih]

/-- Moves keep the registers, the codes and the latches. -/
theorem Moves.halted {g : Prop} {s t : State} (h : Moves g s t) : t.halted = s.halted := by rw [h.frame]
theorem Moves.cfg {g : Prop} {s t : State} (h : Moves g s t) : t.cfg = s.cfg := by rw [h.frame]
theorem Moves.inited {g : Prop} {s t : State} (h : Moves g s t) : t.inited = s.inited := by rw [h.frame]
theorem Moves.st {g : Prop} {s t : State} (h : Moves g s t) : t.st = s.st := by rw [h.frame]
theorem Moves.hcause {g : Prop} {s t : State} (h : Moves g s t) : t.hcause = s.hcause := by rw [h.frame]

/-! ## Operands, command, configuration and results (R21) -/

/-- Operands, `CMD`, the configuration and the host's list are those of `s`. -/
def State.sameOperands (s t : State) : Prop :=
  t.a0 = s.a0 ∧ t.a1 = s.a1 ∧ t.a2 = s.a2 ∧ t.cmd = s.cmd ∧ t.cfg = s.cfg ∧ t.host = s.host

/-- The result registers are those of `s`. -/
def State.sameResults (s t : State) : Prop := t.v0 = s.v0 ∧ t.v1 = s.v1 ∧ t.v2 = s.v2

theorem Moves.sameOperands {g : Prop} {s t : State} (h : Moves g s t) : s.sameOperands t := by
  rw [h.frame]; exact ⟨rfl, rfl, rfl, rfl, rfl, rfl⟩

theorem Moves.sameResults {g : Prop} {s t : State} (h : Moves g s t) : s.sameResults t := by
  rw [h.frame]; exact ⟨rfl, rfl, rfl⟩

theorem State.sameOperands.trans {s t u : State} (h : s.sameOperands t) (k : t.sameOperands u) : s.sameOperands u := by
  obtain ⟨a0, a1, a2, cmd, cfg, host⟩ := h
  obtain ⟨b0, b1, b2, cmd', cfg', host'⟩ := k
  exact ⟨b0.trans a0, b1.trans a1, b2.trans a2, cmd'.trans cmd, cfg'.trans cfg, host'.trans host⟩

theorem State.sameResults.trans {s t u : State} (h : s.sameResults t) (k : t.sameResults u) : s.sameResults u := by
  obtain ⟨a, b, c⟩ := h
  obtain ⟨x, y, z⟩ := k
  exact ⟨x.trans a, y.trans b, z.trans c⟩

/-- An end writes no operand, and the results only with OK. -/
theorem Ends.registers {s t : State} (h : Ends s t) : s.sameOperands t ∧ (t.st ≠ 0#8 → s.sameResults t) := by
  refine ⟨by cases h <;> exact ⟨rfl, rfl, rfl, rfl, rfl, rfl⟩, fun hst => ?_⟩
  cases h with
  | finish => exact ⟨rfl, rfl, rfl⟩
  | ok1 => exact absurd rfl hst
  | ok3 => exact absurd rfl hst
  | raise => exact ⟨rfl, rfl, rfl⟩
  | spin => exact ⟨rfl, rfl, rfl⟩
  | abandon => exact ⟨rfl, rfl, rfl⟩

theorem Run.registers {g : Prop} {s t : State} (h : Run g s t) : s.sameOperands t ∧ (t.st ≠ 0#8 → s.sameResults t) := by
  cases h with
  | plain moves ends =>
    obtain ⟨operands, results⟩ := ends.registers
    exact ⟨moves.sameOperands.trans operands, fun hst => moves.sameResults.trans (results hst)⟩
  | @init u _ _ moves _ rings _ ends =>
    have opens : u.sameOperands u.opened ∧ u.sameResults u.opened := ⟨⟨rfl, rfl, rfl, rfl, rfl, rfl⟩, rfl, rfl, rfl⟩
    obtain ⟨operands, results⟩ := ends.registers
    exact ⟨((moves.sameOperands.trans opens.1).trans rings.sameOperands).trans operands,
      fun hst => ((moves.sameResults.trans opens.2).trans rings.sameResults).trans (results hst)⟩

/-! ## Codes (R23, R24, R304) -/

theorem Kind.code_le (k : Kind) : k.code ≤ 5#8 := by cases k <;> decide

theorem Cause.code_le (c : Cause) : c.code ≤ 13#8 ∧ c.code ≠ 0#8 := by cases c <;> decide

/-- The codes of a block that is not halted: no cause, and a kind in `ST`. -/
theorem State.codesOk_running {s : State} (h : s.codesOk) (hs : s.halted = false) : s.st ≤ 5#8 ∧ s.hcause = 0#8 := by
  obtain ⟨st, -, cause, -⟩ := h
  rw [hs] at cause
  exact ⟨st, by simpa using cause⟩

theorem State.codesOk_of_running {s : State} (hs : s.halted = false) (hst : s.st ≤ 5#8) (hc : s.hcause = 0#8) : s.codesOk :=
  ⟨hst, by simp [hc], by simp [hs, hc], by simp [hs]⟩

theorem State.codesOk_of_halted {s : State} {c : Cause} (hs : s.halted = true) (hst : s.st = 4#8) (hc : s.hcause = c.code) :
    s.codesOk :=
  ⟨by rw [hst]; decide, hc ▸ c.code_le.1, by simp [hs, hc, c.code_le.2], fun _ => hst⟩

theorem Ends.codesOk {s t : State} (h : Ends s t) (hs : s.halted = false) (k : s.codesOk) : t.codesOk := by
  obtain ⟨st, cause⟩ := State.codesOk_running k hs
  cases h with
  | finish => exact State.codesOk_of_running hs (Kind.code_le _) cause
  | ok1 => exact State.codesOk_of_running hs (Kind.code_le _) cause
  | ok3 => exact State.codesOk_of_running hs (Kind.code_le _) cause
  | raise => exact State.codesOk_of_halted rfl rfl rfl
  | spin => exact State.codesOk_of_running hs st cause
  | abandon => exact State.codesOk_of_halted rfl rfl rfl

theorem Moves.codesOk {g : Prop} {s t : State} (h : Moves g s t) (k : s.codesOk) : t.codesOk := by
  unfold State.codesOk
  rw [h.st, h.hcause, h.halted]
  exact k

theorem Run.codesOk {g : Prop} {s t : State} (h : Run g s t) (hs : s.halted = false) (k : s.codesOk) : t.codesOk := by
  cases h with
  | plain moves ends => exact ends.codesOk (moves.halted.trans hs) (moves.codesOk k)
  | init moves _ rings _ ends => exact ends.codesOk ((rings.halted.trans moves.halted).trans hs) (rings.codesOk (moves.codesOk k))

/-! ## Sizes (R26, R34, R42) -/

theorem ringNext_lt {p : Params} (h : 0 < QS p) (i : BitVec 16) : (ringNext p i).toNat < QS p := by
  rw [ringNext, BitVec.toNat_ofNat]
  exact lt_of_le_of_lt (Nat.mod_le _ _) (Nat.mod_lt _ h)

/-- One queue's record may change where it keeps its sizes, and the entries' records as they like. -/
theorem State.sizesOk_setQueue {s t : State} {q : Nat} {f : Queue → Queue} (h : s.sizesOk)
    (same : t = { s with queues := s.queues.modify q f, pool := { s.pool with ent := t.pool.ent } })
    (ents : t.pool.ent.length = s.pool.ent.length) (record : (s.queue q).sizesOk s.cfg → (f (s.queue q)).sizesOk s.cfg) :
    t.sizesOk := by
  obtain ⟨queues, records, nicLength, nicRange, rxLength, txLength, entries, rest⟩ := h
  rw [same]
  exact ⟨(List.length_modify ..).trans queues, State.forall_mem_setQueue records record, nicLength, nicRange, rxLength, txLength,
    ents.trans entries, rest⟩

theorem ClassicMove.sizesOk {g : Prop} {q : Nat} {s t : State} (h : ClassicMove g q s t) (hq : 0 < QS s.cfg) (k : s.sizesOk) :
    t.sizesOk := by
  cases h with
  | restart =>
    exact State.sizesOk_setQueue k rfl rfl (fun ⟨rx, tx, _⟩ => ⟨rx, tx, hq, hq, hq, Nat.zero_le _⟩)
  | arm =>
    exact State.sizesOk_setQueue k rfl (by simp) (fun ⟨rx, rest⟩ => ⟨List.length_set.trans rx, rest⟩)
  | clearTx =>
    exact State.sizesOk_setQueue k rfl rfl (fun ⟨rx, tx, rest⟩ => ⟨rx, List.length_set.trans tx, rest⟩)
  | drain _ _ _ _ _ room =>
    refine State.sizesOk_setQueue k rfl (by simp) (fun ⟨rx, tx, _, txIndex, txClean, _⟩ =>
      ⟨List.length_set.trans rx, tx, ringNext_lt hq _, txIndex, txClean, ?_⟩)
    rw [List.length_append]
    exact room
  | pop front =>
    refine State.sizesOk_setQueue k rfl (by simp [State.lendEnt]) (fun ⟨rx, tx, rxIndex, txIndex, txClean, rxq⟩ =>
      ⟨rx, tx, rxIndex, txIndex, txClean, ?_⟩)
    rw [front] at rxq
    exact Nat.le_of_succ_le rxq
  | send =>
    exact State.sizesOk_setQueue k rfl (by simp) (fun ⟨rx, tx, rxIndex, _, rest⟩ =>
      ⟨rx, List.length_set.trans tx, rxIndex, ringNext_lt hq _, rest⟩)
  | clean =>
    exact State.sizesOk_setQueue k rfl (by simp) (fun ⟨rx, tx, rxIndex, txIndex, _, rxq⟩ =>
      ⟨rx, List.length_set.trans tx, rxIndex, txIndex, ringNext_lt hq _, rxq⟩)

/-- The token arrays and the entries' records may change where they keep their sizes. -/
theorem State.sizesOk_setToken {s t : State} (h : s.sizesOk) (same : t = { s with
      token := t.token, pool := { s.pool with ent := t.pool.ent }, transport := t.transport, inited := t.inited, st := t.st
      halted := t.halted, hcause := t.hcause })
    (rx : t.token.rxBuffers.length = s.token.rxBuffers.length) (tx : t.token.txBuffers.length = s.token.txBuffers.length)
    (ents : t.pool.ent.length = s.pool.ent.length) (latch : t.inited = true → s.inited = true) : t.sizesOk := by
  obtain ⟨queues, records, nicLength, nicRange, rxLength, txLength, entries, absent, nonzero, hasPool⟩ := h
  rw [same]
  exact ⟨queues, records, nicLength, nicRange, rx.trans rxLength, tx.trans txLength, ents.trans entries, absent, nonzero,
    fun e => hasPool (latch e)⟩

theorem TokenMove.sizesOk {g : Prop} {s t : State} (h : TokenMove g s t) (k : s.sizesOk) : t.sizesOk := by
  refine State.sizesOk_setToken k (by rw [h.frame]) ?_ ?_ ?_ (by rw [h.frame]; exact id) <;> cases h <;> simp [State.lendEnt]

theorem Move.sizesOk {g : Prop} {s t : State} (h : Move g s t) (hq : 0 < QS s.cfg) (k : s.sizesOk) : t.sizesOk := by
  cases h with
  | env h => exact h.alike.sizesOk hq k
  | create absent closed countFits sizeFits nonzero room =>
    obtain ⟨queues, records, nicLength, nicRange, rxLength, txLength, -⟩ := k
    refine ⟨queues, records, nicLength, nicRange, rxLength, txLength, ?_, nofun, ?_, fun _ => rfl⟩
    · simp only [Pool.fresh, List.length_replicate, BitVec.toNat_ofNat, Nat.mod_eq_of_lt countFits]
    · simp only [Pool.fresh, ne_eq, ← BitVec.toNat_inj, BitVec.toNat_ofNat, Nat.mod_eq_of_lt countFits,
        Nat.mod_eq_of_lt sizeFits]
      simp
      omega
  | lend => exact State.sizesOk_setToken k rfl rfl rfl (by simp [State.lendEnt]) id
  | giveBack => exact State.sizesOk_setToken k rfl rfl rfl (by simp) id
  | classic _ _ _ h => exact h.sizesOk hq k
  | token _ _ h => exact h.sizesOk k

theorem Moves.sizesOk {g : Prop} {s t : State} (h : Moves g s t) (hq : 0 < QS s.cfg) (k : s.sizesOk) : t.sizesOk := by
  induction h with
  | refl => exact k
  | tail moves m ih => exact m.sizesOk (by rw [Moves.cfg moves]; exact hq) ih

theorem Ends.sizesOk {s t : State} (h : Ends s t) (k : s.sizesOk) : t.sizesOk := by
  cases h with
  | finish => exact k
  | ok1 => exact k
  | ok3 => exact k
  | raise => exact k
  | spin => exact k
  | abandon _ latch => exact State.sizesOk_setToken k rfl rfl rfl (by simp) latch

theorem State.sizesOk_opened {s : State} (k : s.sizesOk) (h : s.pool.present = true) : s.opened.sizesOk := by
  obtain ⟨queues, records, nicLength, nicRange, rxLength, txLength, ents, absent, nonzero, -⟩ := k
  exact ⟨queues, records, nicLength, nicRange, rxLength, txLength, ents, absent, nonzero, fun _ => h⟩

theorem Run.sizesOk {g : Prop} {s t : State} (h : Run g s t) (hq : 0 < QS s.cfg) (k : s.sizesOk) : t.sizesOk := by
  cases h with
  | plain moves ends => exact ends.sizesOk (moves.sizesOk hq k)
  | init moves pool rings _ ends =>
    exact ends.sizesOk (rings.sizesOk (by rw [State.opened, moves.cfg]; exact hq) (State.sizesOk_opened (moves.sizesOk hq k) pool))

end Sys2Proof.Machine
end

section
/-! Ownership and no aliasing (R38, R43, R47): every move takes a buffer out of one place and puts it into another, and changes its tag
with it. Each case is a count over the places. -/

namespace Sys2Proof.Machine

/-! ## Counting the places -/

theorem count_toList_some (i j : Nat) : (some i).toList.count j = if j = i then 1 else 0 := by
  simp only [Option.toList_some, List.count_singleton, beq_iff_eq]
  exact if_congr eq_comm rfl rfl

theorem count_toList_none (j : Nat) : (none : Option Nat).toList.count j = 0 := rfl

/-- What the slots hold when one queue's record changes. -/
theorem State.count_installed_modify {s t : State} {q : Nat} {f : Queue → Queue} (hq : q < s.queues.length)
    (queues : t.queues = s.queues.modify q f) (token : t.token = s.token) (j : Nat) :
    t.installed.count j + (s.queue q).slots.count j = s.installed.count j + (f (s.queue q)).slots.count j := by
  have := count_flatMap_modify (fun r => present r.rxBuf ++ present r.txBuf) f j (State.getElem?_queue hq)
  simp only [State.installed, Queue.slots, queues, token, List.count_append] at this ⊢
  omega

/-- What the driver holds when one queue's record changes. -/
theorem State.count_held_modify {s t : State} {q : Nat} {f : Queue → Queue} (hq : q < s.queues.length)
    (queues : t.queues = s.queues.modify q f) (token : t.token = s.token) (j : Nat) :
    t.held.count j + (s.queue q).rxq.count j = s.held.count j + (f (s.queue q)).rxq.count j := by
  have := count_flatMap_modify (·.rxq) f j (State.getElem?_queue hq)
  simp only [State.held, queues, token, List.count_append]
  omega

/-- What the slots hold when the token arrays change. -/
theorem State.count_installed_token {s t : State} (queues : t.queues = s.queues) (j : Nat) :
    t.installed.count j + ((present s.token.rxBuffers).count j + (present s.token.txBuffers).count j) =
      s.installed.count j + ((present t.token.rxBuffers).count j + (present t.token.txBuffers).count j) := by
  simp only [State.installed, queues, List.count_append]
  omega

/-- What the driver holds when the free-list changes. -/
theorem State.count_held_token {s t : State} (queues : t.queues = s.queues) (j : Nat) :
    t.held.count j + s.token.freeTx.count j = s.held.count j + t.token.freeTx.count j := by
  simp only [State.held, queues, List.count_append]
  omega

/-! ## The tag of a buffer in a place -/

theorem State.owned_hw_of_slots {s : State} (h : s.owned) {q i : Nat} (hq : q < s.queues.length) (hi : i ∈ (s.queue q).slots) :
    (s.entry i).tag = .hw := by
  rw [State.owned_hw_iff h]
  simp only [State.installed, List.mem_append, List.mem_flatMap]
  exact Or.inl (Or.inl ⟨_, State.queue_mem hq, List.mem_append.mp hi⟩)

theorem State.owned_hw_of_rxBuf {s : State} (h : s.owned) {q slot i : Nat} (hq : q < s.queues.length)
    (held : slotAt (s.queue q).rxBuf slot = some i) : (s.entry i).tag = .hw :=
  State.owned_hw_of_slots h hq (List.mem_append_left _ (mem_present_of_slotAt held))

theorem State.owned_hw_of_txBuf {s : State} (h : s.owned) {q slot i : Nat} (hq : q < s.queues.length)
    (held : slotAt (s.queue q).txBuf slot = some i) : (s.entry i).tag = .hw :=
  State.owned_hw_of_slots h hq (List.mem_append_right _ (mem_present_of_slotAt held))

theorem State.owned_hw_of_rxBuffers {s : State} (h : s.owned) {tok i : Nat} (held : slotAt s.token.rxBuffers tok = some i) :
    (s.entry i).tag = .hw := by
  rw [State.owned_hw_iff h]
  simp only [State.installed, List.mem_append]
  exact Or.inl (Or.inr (mem_present_of_slotAt held))

theorem State.owned_hw_of_txBuffers {s : State} (h : s.owned) {tok i : Nat} (held : slotAt s.token.txBuffers tok = some i) :
    (s.entry i).tag = .hw := by
  rw [State.owned_hw_iff h]
  simp only [State.installed, List.mem_append]
  exact Or.inr (mem_present_of_slotAt held)

theorem State.owned_swDriver_of_rxq {s : State} (h : s.owned) {q i : Nat} (hq : q < s.queues.length) (hi : i ∈ (s.queue q).rxq) :
    (s.entry i).tag = .swDriver := by
  rw [State.owned_swDriver_iff h]
  exact List.mem_append_left _ (List.mem_flatMap.mpr ⟨_, State.queue_mem hq, hi⟩)

theorem State.owned_swDriver_of_freeTx {s : State} (h : s.owned) {i : Nat} (hi : i ∈ s.token.freeTx) :
    (s.entry i).tag = .swDriver := by
  rw [State.owned_swDriver_iff h]
  exact List.mem_append_right _ hi

/-- A tag other than `Free` bounds the entry. -/
theorem State.lt_of_tag_eq {s : State} {i : Nat} {x : Tag} (h : (s.entry i).tag = x) (hx : x ≠ .free) : i < s.pool.ent.length :=
  State.lt_of_tag (h ▸ hx)

/-! ## One buffer moves -/

/-- The count of one buffer, where a condition holds. -/
def oneIf (j i : Nat) (p : Prop) [Decidable p] : Nat := if j = i ∧ p then 1 else 0

/-- Ownership when one entry changes: it leaves the places its old tag says and enters those its new tag says. -/
theorem State.owned_setEnt {s t : State} {i : Nat} {f : Entry → Entry} (h : s.owned) (hi : i < s.pool.ent.length)
    (ents : t.pool.ent = s.pool.ent.modify i f)
    (installed : ∀ j, t.installed.count j + oneIf j i ((s.entry i).tag = .hw) =
      s.installed.count j + oneIf j i ((f (s.entry i)).tag = .hw))
    (held : ∀ j, t.held.count j + oneIf j i ((s.entry i).tag = .swDriver) =
      s.held.count j + oneIf j i ((f (s.entry i)).tag = .swDriver)) : t.owned := by
  intro j
  obtain ⟨hw, driver⟩ := h j
  have inst := installed j
  have drv := held j
  have entry : t.entry j = if j = i then f (s.entry i) else s.entry j := by
    rw [← State.entry_setEnt hi f j, State.entry, ents]; rfl
  unfold oneIf at inst drv
  by_cases e : j = i
  · subst e
    simp only [if_true, true_and] at inst drv entry
    rw [entry]
    omega
  · simp only [e, if_false, false_and] at inst drv entry
    rw [entry]
    omega

/-- Ownership when one entry and one queue's record change. -/
theorem State.owned_setEnt_setQueue {s t : State} {q i : Nat} {f : Entry → Entry} {r : Queue → Queue} (h : s.owned)
    (hq : q < s.queues.length) (hi : i < s.pool.ent.length) (ents : t.pool.ent = s.pool.ent.modify i f)
    (queues : t.queues = s.queues.modify q r) (token : t.token = s.token)
    (slots : ∀ j, (r (s.queue q)).slots.count j + oneIf j i ((s.entry i).tag = .hw) =
      (s.queue q).slots.count j + oneIf j i ((f (s.entry i)).tag = .hw))
    (rxq : ∀ j, (r (s.queue q)).rxq.count j + oneIf j i ((s.entry i).tag = .swDriver) =
      (s.queue q).rxq.count j + oneIf j i ((f (s.entry i)).tag = .swDriver)) : t.owned := by
  refine State.owned_setEnt h hi ents (fun j => ?_) (fun j => ?_)
  · have all := State.count_installed_modify hq queues token j
    have one := slots j
    omega
  · have all := State.count_held_modify hq queues token j
    have one := rxq j
    omega

/-- Ownership when one entry and the token rings change. -/
theorem State.owned_setEnt_setToken {s t : State} {i : Nat} {f : Entry → Entry} (h : s.owned)
    (hi : i < s.pool.ent.length) (ents : t.pool.ent = s.pool.ent.modify i f) (queues : t.queues = s.queues)
    (buffers : ∀ j, (present t.token.rxBuffers).count j + (present t.token.txBuffers).count j + oneIf j i ((s.entry i).tag = .hw) =
      (present s.token.rxBuffers).count j + (present s.token.txBuffers).count j + oneIf j i ((f (s.entry i)).tag = .hw))
    (freeTx : ∀ j, t.token.freeTx.count j + oneIf j i ((s.entry i).tag = .swDriver) =
      s.token.freeTx.count j + oneIf j i ((f (s.entry i)).tag = .swDriver)) : t.owned := by
  refine State.owned_setEnt h hi ents (fun j => ?_) (fun j => ?_)
  · have all := State.count_installed_token queues j
    have one := buffers j
    omega
  · have all := State.count_held_token queues j
    have one := freeTx j
    omega

/-- Ownership when one queue's record changes and holds what it held. -/
theorem State.owned_setQueue {s t : State} {q : Nat} {r : Queue → Queue} (h : s.owned) (hq : q < s.queues.length)
    (pool : t.pool = s.pool) (queues : t.queues = s.queues.modify q r) (token : t.token = s.token)
    (slots : (r (s.queue q)).slots = (s.queue q).slots) (rxq : (r (s.queue q)).rxq = (s.queue q).rxq) : t.owned := by
  intro j
  obtain ⟨hw, driver⟩ := h j
  have installed := State.count_installed_modify hq queues token j
  have held := State.count_held_modify hq queues token j
  have entry : t.entry j = s.entry j := by rw [State.entry, pool]; rfl
  rw [slots] at installed
  rw [rxq] at held
  rw [entry, ← hw, ← driver]
  exact ⟨Nat.add_right_cancel installed, Nat.add_right_cancel held⟩

theorem oneIf_true (j i : Nat) : oneIf j i True = if j = i then 1 else 0 := by simp [oneIf]

theorem oneIf_false (j i : Nat) : oneIf j i False = 0 := by simp [oneIf]

theorem ClassicMove.owned {g : Prop} {q : Nat} {s t : State} (h : ClassicMove g q s t) (hg : g) (k : s.Live)
    (inRange : q < QN s.cfg) : t.owned := by
  have own := k.owned
  obtain ⟨queues, records, -⟩ := k.sizes
  have hq : q < s.queues.length := queues ▸ inRange
  obtain ⟨rxLength, txLength, rxIndexLt, txIndexLt, txCleanLt, -⟩ := records _ (State.queue_mem hq)
  cases h with
  | restart empty => exact State.owned_setQueue own hq rfl rfl rfl rfl (empty hg).1.symm
  | @arm slot i f inPool free hands inRing empty =>
    refine State.owned_setEnt_setQueue own hq inPool rfl rfl rfl (fun j => ?_) (fun j => ?_)
    · have array := count_present_set j (some i) (rxLength ▸ inRing)
      simp only [empty hg, count_toList_none, count_toList_some] at array
      simp only [Queue.slots, List.count_append, free, (hands _).1, reduceCtorEq, oneIf_true, oneIf_false]
      omega
    · simp only [free, (hands _).1, reduceCtorEq, oneIf_false]
  | clearTx empty =>
    refine State.owned_setQueue own hq rfl rfl rfl ?_ rfl
    simp only [Queue.slots, set_none_of_slotAt_none (empty hg)]
  | @drain slot i j f h held takes inPool free hands room =>
    have tag := State.owned_hw_of_rxBuf own hq held
    have apart : i ≠ j := fun e => by rw [e, free] at tag; cases tag
    -- the slot is emptied and its buffer put on the software queue, and only then armed anew
    let u := (s.setEnt i f).setQueue q (fun r => { r with rxq := r.rxq ++ [i], rxBuf := r.rxBuf.set slot none })
    have emptied : u.owned := by
      refine State.owned_setEnt_setQueue own hq (State.lt_of_tag_eq tag (by decide)) rfl rfl rfl (fun x => ?_) (fun x => ?_)
      · have array := count_present_set x none (lt_length_of_slotAt held)
        simp only [held, count_toList_none, count_toList_some] at array
        simp only [Queue.slots, List.count_append, tag, (takes _).1, reduceCtorEq, oneIf_true, oneIf_false]
        omega
      · simp only [List.count_append, ← Option.toList_some, count_toList_some, tag, (takes _).1, reduceCtorEq, oneIf_true, oneIf_false,
          Nat.add_zero]
    have free' : (u.entry j).tag = .free := by
      rw [← free]
      exact congrArg Entry.tag (State.entry_setEnt_ne apart.symm f)
    have record : u.queue q = { s.queue q with rxq := (s.queue q).rxq ++ [i], rxBuf := (s.queue q).rxBuf.set slot none } :=
      State.queue_setQueue_self (s := s.setEnt i f) hq _
    refine State.owned_setEnt_setQueue emptied (q := q) (i := j) (f := h)
      (r := fun r => { r with rxBuf := r.rxBuf.set slot (some j), rxIndex := ringNext s.cfg r.rxIndex })
      (by simpa [u] using hq) (by simpa [u] using inPool) rfl ?_ rfl (fun x => ?_) (fun x => ?_)
    · simp [u, List.modify_modify_eq, Function.comp_def]
    · have array := count_present_set x (some j) (l := (s.queue q).rxBuf.set slot none) (k := slot)
        (by simpa using lt_length_of_slotAt held)
      simp only [slotAt_set_none_self, count_toList_none, count_toList_some] at array
      simp only [record, Queue.slots, List.count_append, free', (hands _).1, reduceCtorEq, oneIf_true, oneIf_false]
      omega
    · simp only [free', (hands _).1, reduceCtorEq, oneIf_false]
  | @pop i rest hdr len front =>
    have tag := State.owned_swDriver_of_rxq own hq (i := i) (by rw [front]; exact List.mem_cons_self)
    refine State.owned_setEnt_setQueue own hq (State.lt_of_tag_eq tag (by decide)) rfl rfl rfl (fun j => ?_) (fun j => ?_)
    · simp only [Queue.slots, tag, reduceCtorEq, oneIf_false]
    · simp only [front, tag, List.count_cons, beq_iff_eq, reduceCtorEq, oneIf_true, oneIf_false, eq_comm (a := j)]
      rfl
  | @send i f lent hands room =>
    refine State.owned_setEnt_setQueue own hq (State.lt_of_tag_eq lent (by decide)) rfl rfl rfl (fun j => ?_) (fun j => ?_)
    · have array := count_present_set j (some i) (txLength ▸ txIndexLt)
      simp only [Option.isNone_iff_eq_none.mp room, count_toList_none, count_toList_some] at array
      simp only [Queue.slots, List.count_append, lent, (hands _).1, reduceCtorEq, oneIf_true, oneIf_false]
      omega
    · simp only [lent, (hands _).1, reduceCtorEq, oneIf_false]
  | @clean i held =>
    have tag := State.owned_hw_of_txBuf own hq held
    refine State.owned_setEnt_setQueue own hq (State.lt_of_tag_eq tag (by decide)) rfl rfl rfl (fun j => ?_) (fun j => ?_)
    · have array := count_present_set j none (lt_length_of_slotAt held)
      simp only [held, count_toList_none, count_toList_some] at array
      simp only [Queue.slots, List.count_append, tag, reduceCtorEq, oneIf_true, oneIf_false]
      omega
    · simp only [tag, reduceCtorEq, oneIf_false]

/-- Emptying a free-list that is empty changes nothing. -/
theorem State.setFreeTx_nil {s : State} (h : s.token.freeTx = []) : s.setFreeTx [] = s := by
  rw [← h]; rfl

theorem TokenMove.owned {g : Prop} {s t : State} (h : TokenMove g s t) (hg : g) (k : s.Live) : t.owned := by
  have own := k.owned
  obtain ⟨-, -, -, -, rxLength, txLength, -⟩ := k.sizes
  cases h with
  | restart empty => rwa [State.setFreeTx_nil (empty hg)]
  | @submitRx tok i f inPool mine hands inRing empty =>
    have notHw : (s.entry i).tag ≠ .hw := by rcases mine with e | e <;> simp [e]
    have notDriver : (s.entry i).tag ≠ .swDriver := by rcases mine with e | e <;> simp [e]
    refine State.owned_setEnt_setToken own inPool rfl rfl (fun j => ?_) (fun j => ?_)
    · have array := count_present_set j (some i) (rxLength ▸ inRing)
      simp only [empty hg, count_toList_none, count_toList_some] at array
      simp only [State.setRxBuffer_token, State.setEnt_token, notHw, (hands _).1, oneIf_true, oneIf_false]
      omega
    · simp only [State.setRxBuffer_token, State.setEnt_token, notDriver, (hands _).1, reduceCtorEq, oneIf_false]
  | @submitTx tok i nbytes f lent hands inRing empty =>
    refine State.owned_setEnt_setToken own (State.lt_of_tag_eq lent (by decide)) rfl rfl (fun j => ?_) (fun j => ?_)
    · have array := count_present_set j (some i) (txLength ▸ inRing)
      simp only [empty, count_toList_none, count_toList_some] at array
      simp only [State.setTxBuffer_token, State.setEnt_token, lent, (hands _).1, reduceCtorEq, oneIf_true, oneIf_false]
      omega
    · simp only [State.setTxBuffer_token, State.setEnt_token, lent, (hands _).1, reduceCtorEq, oneIf_false]
  | @completeRx tok i u rest hdr len held =>
    have tag := State.owned_hw_of_rxBuffers own held
    refine State.owned_setEnt_setToken own (State.lt_of_tag_eq tag (by decide)) rfl rfl (fun j => ?_) (fun j => ?_)
    · have array := count_present_set j none (lt_length_of_slotAt held)
      simp only [held, count_toList_none, count_toList_some] at array
      simp only [State.lendEnt, State.setRxBuffer_token, State.setEnt_token, tag, reduceCtorEq, oneIf_true, oneIf_false]
      omega
    · simp only [State.lendEnt, State.setRxBuffer_token, State.setEnt_token, tag, reduceCtorEq, oneIf_false]
  | @completeTx tok i u rest f held _ _ _ takes =>
    have tag := State.owned_hw_of_txBuffers own held
    refine State.owned_setEnt_setToken own (State.lt_of_tag_eq tag (by decide)) rfl rfl (fun j => ?_) (fun j => ?_)
    · have array := count_present_set j none (lt_length_of_slotAt held)
      simp only [held, count_toList_none, count_toList_some] at array
      simp only [State.setFreeTx_token, State.setTxBuffer_token, State.setEnt_token, tag, (takes _).1, reduceCtorEq, oneIf_true,
        oneIf_false]
      omega
    · simp only [State.setFreeTx_token, List.count_append, ← Option.toList_some, count_toList_some, tag, (takes _).1, reduceCtorEq,
        oneIf_true, oneIf_false, Nat.add_zero]
  | @fill i slot f inPool free takes empty =>
    refine State.owned_setEnt_setToken own inPool rfl rfl (fun j => ?_) (fun j => ?_)
    · simp only [State.setTxBuffer_token, State.setFreeTx_token, State.setEnt_token, set_none_of_slotAt_none (empty hg), free,
        (takes _).1, reduceCtorEq, oneIf_false]
    · simp only [State.setTxBuffer_token, State.setFreeTx_token, List.count_append, ← Option.toList_some, count_toList_some, free,
        (takes _).1, reduceCtorEq, oneIf_true, oneIf_false, Nat.add_zero]
  | @alloc i hdr len top =>
    have split := List.dropLast_append_getLast? i top
    have tag := State.owned_swDriver_of_freeTx own (i := i) (by rw [← split]; simp)
    refine State.owned_setEnt_setToken own (State.lt_of_tag_eq tag (by decide)) rfl rfl (fun j => ?_) (fun j => ?_)
    · simp only [State.lendEnt, State.setFreeTx_token, State.setEnt_token, tag, reduceCtorEq, oneIf_false]
    · have all := congrArg (List.count j) split
      rw [List.count_append, ← Option.toList_some, count_toList_some] at all
      simp only [State.lendEnt, State.setFreeTx_token, State.setEnt_token, tag, reduceCtorEq, oneIf_true, oneIf_false]
      exact all

theorem Move.owned {g : Prop} {s t : State} (h : Move g s t) (hg : g) (k : s.Live) : t.owned := by
  have own := k.owned
  cases h with
  | env h => exact h.alike.owned own
  | @create count size absent closed =>
    -- before the block is initialised there is no buffer in any place, and every entry of the new pool is free
    have blankQueues := k.queuesIdle (Or.inr closed)
    obtain ⟨freeTx, rx, tx⟩ := k.tokenIdle (Or.inr closed)
    have installed : s.installed = [] := by
      simp only [State.installed, List.append_eq_nil_iff, List.flatMap_eq_nil_iff, present_eq_nil rx, present_eq_nil tx, and_true]
      exact fun r hr => ⟨present_eq_nil (blankQueues r hr).2.1, present_eq_nil (blankQueues r hr).2.2⟩
    have held : s.held = [] := by
      simp only [State.held, List.append_eq_nil_iff, List.flatMap_eq_nil_iff, freeTx, and_true]
      exact fun r hr => (blankQueues r hr).1
    intro j
    have free : (State.entry { s with pool := Pool.fresh count size } j).tag = .free := by
      simp only [State.entry, Pool.fresh, List.getD, List.getElem?_replicate]
      split <;> rfl
    rw [free]
    change s.installed.count j = _ ∧ s.held.count j = _
    simp [installed, held]
  | lend inPool free =>
    refine State.owned_setEnt own inPool rfl (fun j => ?_) (fun j => ?_) <;> simp only [free, reduceCtorEq, oneIf_false] <;> rfl
  | giveBack lent =>
    refine State.owned_setEnt own (State.lt_of_tag_eq lent (by decide)) rfl (fun j => ?_) (fun j => ?_) <;>
      simp only [lent, reduceCtorEq, oneIf_false] <;> rfl
  | classic _ _ inRange h => exact h.owned hg k inRange
  | token _ _ h => exact h.owned hg k

end Sys2Proof.Machine
end

section
/-! The other parts of the invariant under a move: the pool's place, recorded handles, Tx windows, idle places and full Rx rings; the moves
keep the invariant of a running block. -/

namespace Sys2Proof.Machine

/-! ## Recorded handles (R35) -/

theorem State.wireOk_lent (s : State) (i : Nat) (hdr len : Word) :
    s.wireOk i ⟨.swStack, hdr, len, s.pool.esz.setWidth 64, some (s.handleOf i hdr len)⟩ :=
  ⟨fun _ => ⟨rfl, rfl⟩, fun h => absurd rfl h⟩

theorem State.wiresOk_lendEnt {s : State} (h : s.wiresOk) (i : Nat) (hdr len : Word) : (s.lendEnt i hdr len).wiresOk :=
  State.wiresOk_setEnt h (s.wireOk_lent i hdr len)

theorem State.wiresOk_handsOver {s : State} {f : Entry → Entry} (h : s.wiresOk) (hands : HandsOver f) (i : Nat) :
    (s.setEnt i f).wiresOk :=
  State.wiresOk_setEnt h (State.wireOk_of_none (by rw [(hands _).1]; decide) (hands _).2)

/-- An entry the hardware held has no handle, so the driver may take it with the handle as it is. -/
theorem State.wiresOk_takesBack {s : State} {f : Entry → Entry} {i : Nat} (h : s.wiresOk) (takes : TakesBack f)
    (tag : (s.entry i).tag = .hw) : (s.setEnt i f).wiresOk :=
  State.wiresOk_setEnt h (State.wireOk_of_none (by rw [(takes _).1]; decide)
    ((takes _).2.trans (State.wire_none h (by rw [tag]; decide))))

theorem State.wiresOk_release {s : State} (h : s.wiresOk) (i : Nat) : (s.release i).wiresOk :=
  State.wiresOk_setEnt h (State.wireOk_of_none nofun rfl)

theorem ClassicMove.wiresOk {g : Prop} {q : Nat} {s t : State} (h : ClassicMove g q s t) (k : s.Live) (inRange : q < QN s.cfg) :
    t.wiresOk := by
  have wires := k.wires
  have hq : q < s.queues.length := k.sizes.1 ▸ inRange
  cases h with
  | restart => exact wires
  | arm _ _ hands => exact State.wiresOk_handsOver wires hands _
  | clearTx => exact wires
  | drain held takes _ _ hands =>
    exact State.wiresOk_handsOver (State.wiresOk_takesBack wires takes (State.owned_hw_of_rxBuf k.owned hq held)) hands _
  | pop => exact State.wiresOk_lendEnt wires _ _ _
  | send _ hands => exact State.wiresOk_handsOver wires hands _
  | clean => exact State.wiresOk_release wires _

theorem TokenMove.wiresOk {g : Prop} {s t : State} (h : TokenMove g s t) (k : s.Live) : t.wiresOk := by
  have wires := k.wires
  cases h with
  | restart => exact wires
  | submitRx _ _ hands => exact State.wiresOk_handsOver wires hands _
  | submitTx _ hands => exact State.wiresOk_handsOver wires hands _
  | completeRx => exact State.wiresOk_lendEnt wires _ _ _
  | completeTx held _ _ _ takes => exact State.wiresOk_takesBack wires takes (State.owned_hw_of_txBuffers k.owned held)
  | fill _ _ takes => exact State.wiresOk_setEnt wires (State.wireOk_of_none (by rw [(takes _).1]; decide) (takes _).2)
  | alloc => exact State.wiresOk_lendEnt wires _ _ _

theorem Move.wiresOk {g : Prop} {s t : State} (h : Move g s t) (k : s.Live) : t.wiresOk := by
  cases h with
  | env h => exact h.alike.wiresOk k.wires
  | @create count size =>
    intro i hi
    have free : State.entry { s with pool := Pool.fresh count size } i = {} := by
      simp only [State.entry, Pool.fresh, List.getD, List.getElem?_replicate]
      split <;> rfl
    rw [free]
    exact ⟨nofun, fun _ => rfl⟩
  | lend => exact State.wiresOk_lendEnt k.wires _ _ _
  | giveBack => exact State.wiresOk_release k.wires _
  | classic _ _ inRange h => exact h.wiresOk k inRange
  | token _ _ h => exact h.wiresOk k

/-! ## Tx windows (R29) -/

/-- Two slots less than a lap after the same index are the same only at the same distance. -/
theorem slot_inj {n a j k : Nat} (hj : j < n) (hk : k < n) (h : (a + j) % n = (a + k) % n) : j = k := by
  have := Nat.ModEq.add_left_cancel' a h
  rwa [Nat.ModEq, Nat.mod_eq_of_lt hj, Nat.mod_eq_of_lt hk] at this

theorem ringNext_toNat {p : Params} (h : 0 < QS p) (i : BitVec 16) : (ringNext p i).toNat = (i.toNat + 1) % QS p := by
  have bound : (i.toNat + 1) % QS p < 2 ^ 16 := lt_trans (Nat.mod_lt _ h) p.qs.isLt
  rw [ringNext, BitVec.toNat_ofNat, Nat.mod_eq_of_lt bound]

/-- An empty ring has its window, wherever its indices are the same. -/
theorem Queue.txWindowOk_empty {p : Params} {r : Queue} (same : r.txIndex = r.txClean) (inRange : r.txIndex.toNat < QS p)
    (empty : ∀ o ∈ r.txBuf, o = none) : r.txWindowOk p := by
  refine ⟨0, Nat.zero_le _, ?_, fun j _ => ?_⟩
  · rw [← same, Nat.add_zero, Nat.mod_eq_of_lt inRange]
  · simp [(forall_mem_none_iff _).mp empty]

/-- The slot at `tx_index` is empty exactly when the window has not come round the whole ring. -/
theorem Queue.txIndex_free_iff {p : Params} {r : Queue} {k : Nat} (hq : 0 < QS p) (hk : k ≤ QS p)
    (index : r.txIndex.toNat = (r.txClean.toNat + k) % QS p)
    (window : ∀ j < QS p, (slotAt r.txBuf ((r.txClean.toNat + j) % QS p) ≠ none ↔ j < k)) :
    slotAt r.txBuf r.txIndex.toNat = none ↔ k < QS p := by
  rcases Nat.lt_or_eq_of_le hk with lt | full
  · have := window k lt
    rw [← index] at this
    simp only [lt, iff_true]
    by_contra h
    exact absurd (this.mp h) (lt_irrefl k)
  · have := window 0 hq
    rw [index, full, Nat.add_mod_right, ← Nat.add_zero r.txClean.toNat]
    simp only [lt_irrefl, iff_false]
    exact this.mpr (full ▸ hq)

/-- Sending puts a buffer at the end of the window (R208). -/
theorem Queue.txWindowOk_send {p : Params} {r : Queue} {i : Nat} (hq : 0 < QS p) (h : r.txWindowOk p)
    (length : r.txBuf.length = QS p) (room : slotAt r.txBuf r.txIndex.toNat = none) :
    Queue.txWindowOk p { r with txBuf := r.txBuf.set r.txIndex.toNat (some i), txIndex := ringNext p r.txIndex } := by
  obtain ⟨k, hk, index, window⟩ := h
  have lt : k < QS p := (Queue.txIndex_free_iff hq hk index window).mp room
  refine ⟨k + 1, lt, ?_, fun j hj => ?_⟩
  · rw [ringNext_toNat hq, index, Nat.mod_add_mod, Nat.add_assoc]
  · by_cases e : j = k
    · subst e
      rw [← index, slotAt_set_self (by rw [length, index]; exact Nat.mod_lt _ hq)]
      simp
    · rw [slotAt_set_ne (by rw [index]; exact fun h => e (slot_inj hj lt h)), window j hj]
      omega

/-- Reclaiming takes the buffer at the front of the window (R209). -/
theorem Queue.txWindowOk_clean {p : Params} {r : Queue} {i : Nat} (h : r.txWindowOk p) (inRange : r.txClean.toNat < QS p)
    (held : slotAt r.txBuf r.txClean.toNat = some i) :
    Queue.txWindowOk p { r with txBuf := r.txBuf.set r.txClean.toNat none, txClean := ringNext p r.txClean } := by
  obtain ⟨k, hk, index, window⟩ := h
  have hq : 0 < QS p := Nat.zero_lt_of_lt inRange
  have pos : 0 < k := (window 0 hq).mp (by rw [Nat.add_zero, Nat.mod_eq_of_lt inRange, held]; exact Option.some_ne_none i)
  have next : ∀ j, ((ringNext p r.txClean).toNat + j) % QS p = (r.txClean.toNat + (j + 1)) % QS p := fun j => by
    rw [ringNext_toNat hq, Nat.mod_add_mod, Nat.add_assoc, Nat.add_comm 1]
  refine ⟨k - 1, by omega, ?_, fun j hj => ?_⟩
  · rw [index, next, Nat.sub_add_cancel pos]
  · rw [next]
    by_cases e : j + 1 = QS p
    · rw [e, Nat.add_mod_right, Nat.mod_eq_of_lt inRange, slotAt_set_none_self]
      simp only [ne_eq, not_true_eq_false, false_iff]
      omega
    · have away : (r.txClean.toNat + (j + 1)) % QS p ≠ r.txClean.toNat := fun h =>
        absurd (slot_inj (a := r.txClean.toNat) (j := j + 1) (k := 0) (by omega) hq
          (by rw [h, Nat.add_zero, Nat.mod_eq_of_lt inRange])) (Nat.succ_ne_zero j)
      rw [slotAt_set_ne away, window (j + 1) (by omega)]
      omega

theorem ClassicMove.txWindowsOk {g : Prop} {q : Nat} {s t : State} (h : ClassicMove g q s t) (hg : g) (k : s.Live)
    (inRange : q < QN s.cfg) : t.txWindowsOk := by
  have hq := validParams_QS_pos k.valid
  obtain ⟨queues, records, -⟩ := k.sizes
  have hlen : q < s.queues.length := queues ▸ inRange
  obtain ⟨rxLength, txLength, rxIndexLt, txIndexLt, txCleanLt, -⟩ := records _ (State.queue_mem hlen)
  cases h with
  | restart empty =>
    exact State.forall_mem_setQueue k.windows fun _ => Queue.txWindowOk_empty rfl hq (empty hg).2
  | arm => exact State.forall_mem_setQueue k.windows id
  | clearTx empty =>
    refine State.forall_mem_setQueue k.windows fun h => ?_
    rw [set_none_of_slotAt_none (empty hg)]
    exact h
  | drain => exact State.forall_mem_setQueue k.windows id
  | pop => exact State.forall_mem_setQueue k.windows id
  | send _ _ room =>
    exact State.forall_mem_setQueue k.windows fun h => Queue.txWindowOk_send hq h txLength (Option.isNone_iff_eq_none.mp room)
  | clean held => exact State.forall_mem_setQueue k.windows fun h => Queue.txWindowOk_clean h txCleanLt held

/-! ## Full Rx rings (R40) -/

theorem ClassicMove.fullRx {g : Prop} {q : Nat} {s t : State} (h : ClassicMove g q s t) (k : s.fullRx) : t.fullRx := by
  intro family isOpen
  have full : ∀ r ∈ s.queues, ∀ o ∈ r.rxBuf, o ≠ none := by
    rw [h.frame] at family isOpen
    exact k family isOpen
  cases h with
  | restart => exact State.forall_mem_setQueue full id
  | arm => exact State.forall_mem_setQueue full fun h => forall_mem_set _ h (Option.some_ne_none _)
  | clearTx => exact State.forall_mem_setQueue full id
  | drain => exact State.forall_mem_setQueue full fun h => forall_mem_set _ h (Option.some_ne_none _)
  | pop => exact State.forall_mem_setQueue full id
  | send => exact State.forall_mem_setQueue full id
  | clean => exact State.forall_mem_setQueue full id

theorem Move.fullRx {g : Prop} {s t : State} (h : Move g s t) (k : s.fullRx) : t.fullRx := by
  cases h with
  | env h => exact h.alike.fullRx k
  | create => exact k
  | lend => exact k
  | giveBack => exact k
  | classic _ _ _ h => exact h.fullRx k
  | token _ _ h => rw [h.frame]; exact k

theorem Moves.fullRx {g : Prop} {s t : State} (h : Moves g s t) (k : s.fullRx) : t.fullRx := by
  induction h with
  | refl => exact k
  | tail _ m ih => exact m.fullRx ih

/-! ## A running block -/

/-- A move keeps the invariant of a running block. -/
theorem Move.live {g : Prop} {s t : State} (h : Move g s t) (hg : g) (k : s.Live) : t.Live := by
  have sizes := h.sizesOk (validParams_QS_pos k.valid) k.sizes
  have wires := h.wiresOk k
  have owned := h.owned hg k
  cases h with
  | env h => exact k.alike h.alike
  | create absent closed countFits sizeFits nonzero room =>
    refine { k with sizes, wires, owned, placed := ?_ }
    simpa only [State.placedOk, Pool.fresh, BitVec.toNat_ofNat, Nat.mod_eq_of_lt countFits, Nat.mod_eq_of_lt sizeFits] using room
  | lend => exact { k with sizes, wires, owned, placed := k.placed }
  | giveBack => exact { k with sizes, wires, owned, placed := k.placed }
  | classic family isOpen inRange h =>
    have windows := h.txWindowsOk hg k inRange
    have tokenIdle := k.tokenIdle
    rw [h.frame] at sizes wires owned windows ⊢
    refine { k with sizes, wires, owned, windows, placed := k.placed, queuesIdle := fun c => ?_, tokenIdle }
    rcases c with c | c
    · rw [family] at c; cases c
    · rw [isOpen] at c; cases c
  | token family isOpen h =>
    rw [h.frame] at sizes wires owned ⊢
    refine { k with sizes, wires, owned, windows := k.windows, placed := k.placed, queuesIdle := k.queuesIdle, tokenIdle := fun c => ?_ }
    rcases c with c | c
    · rw [family] at c; cases c
    · rw [isOpen] at c; cases c

theorem Moves.live {g : Prop} {s t : State} (h : Moves g s t) (hg : g) (k : s.Live) : t.Live := by
  induction h with
  | refl => exact k
  | tail _ m ih => exact m.live hg ih

/-- A block with a pool may be initialised. -/
theorem State.Live.opened {s : State} (k : s.Live) (h : s.pool.present = true) : s.opened.Live where
  valid := k.valid
  memory := k.memory
  sizes := State.sizesOk_opened k.sizes h
  placed := k.placed
  wires := k.wires
  owned := k.owned
  windows := k.windows
  queuesIdle c := k.queuesIdle (c.imp_right nofun)
  tokenIdle c := k.tokenIdle (c.imp_right nofun)

/-- An end keeps the invariant: it changes registers, or it halts the block. -/
theorem Ends.inv {s t : State} (h : Ends s t) (k : s.Live) (full : s.fullRx) (codes : t.codesOk) : t.Inv := by
  have registers : Alike s t → t.Inv := fun a => (k.alike a).inv (a.fullRx full) codes
  cases h with
  | finish => exact registers (.of_registers rfl id)
  | ok1 => exact registers (.of_registers rfl id)
  | ok3 => exact registers (.of_registers rfl id)
  | raise => exact registers (.of_registers rfl fun _ => rfl)
  | spin => exact registers (.of_registers rfl id)
  | abandon hands latch =>
    exact {
      valid := k.valid
      memory := k.memory
      codes
      sizes := (Ends.abandon hands latch).sizesOk k.sizes
      placed := k.placed
      idle := ⟨fun c => k.queuesIdle (c.imp_right fun d => absurd d.2 (by simp)),
        fun c => k.tokenIdle (c.imp_right fun d => absurd d.2 (by simp))⟩
      wires := State.wiresOk_handsOver k.wires hands _
      owns := nofun
      windows := k.windows }

/-- An operation keeps the whole invariant. -/
theorem Run.inv {s t : State} (h : Run s.Inv s t) (hs : s.halted = false) (k : s.Inv) : t.Inv := by
  have codes := h.codesOk hs k.codes
  cases h with
  | plain moves ends => exact ends.inv (moves.live k (k.live hs)) (moves.fullRx (k.fullRx hs)) codes
  | init moves pool rings full ends =>
    exact ends.inv (rings.live k ((moves.live k (k.live hs)).opened pool)) (full k) codes

end Sys2Proof.Machine
end

section
/-! The token arrays and the transport (R44, R45, R286, R289): a move puts a token under an empty slot and in flight at once, or takes a
completed token from both. -/

namespace Sys2Proof.Machine

/-- A slot array and a list of tokens with their entries say the same, and no token is listed twice. -/
def Agree (l : List (Option Nat)) (held : List (Nat × Nat)) : Prop :=
  (∀ t i, slotAt l t = some i ↔ (t, i) ∈ held) ∧ (held.map Prod.fst).Nodup

theorem State.tokensOk_iff (s : State) : s.tokensOk ↔ (s.halted = false →
    Agree s.token.rxBuffers s.transport.rxHeld ∧ Agree s.token.txBuffers s.transport.txHeld) := by
  unfold State.tokensOk Agree
  exact forall_congr' fun _ => ⟨fun ⟨rx, tx, rxNodup, txNodup⟩ => ⟨⟨rx, rxNodup⟩, tx, txNodup⟩,
    fun ⟨⟨rx, rxNodup⟩, tx, txNodup⟩ => ⟨rx, tx, rxNodup, txNodup⟩⟩

/-- A new token in an empty slot. -/
theorem Agree.add {l : List (Option Nat)} {held held' : List (Nat × Nat)} {tok i : Nat} (h : Agree l held) (ht : tok < l.length)
    (empty : slotAt l tok = none) (perm : held'.Perm ((tok, i) :: held)) : Agree (l.set tok (some i)) held' := by
  obtain ⟨same, nodup⟩ := h
  have fresh : ∀ j, (tok, j) ∉ held := fun j hj => by
    rw [(same tok j).mpr hj] at empty
    cases empty
  refine ⟨fun t j => ?_, (perm.map Prod.fst).nodup_iff.mpr (List.nodup_cons.mpr ⟨?_, nodup⟩)⟩
  · rw [perm.mem_iff, List.mem_cons, Prod.mk.injEq]
    by_cases e : t = tok
    · subst e
      simp [slotAt_set_self ht, fresh, eq_comm]
    · simp [slotAt_set_ne e, e, same]
  · simpa using fresh

/-- A token taken away and its slot emptied. -/
theorem Agree.remove {l : List (Option Nat)} {held held' : List (Nat × Nat)} {tok i : Nat} (h : Agree l held)
    (perm : held.Perm ((tok, i) :: held')) : Agree (l.set tok none) held' := by
  obtain ⟨same, nodup⟩ := h
  obtain ⟨gone, nodup'⟩ := List.nodup_cons.mp ((perm.map Prod.fst).nodup_iff.mp nodup)
  refine ⟨fun t j => ?_, nodup'⟩
  by_cases e : t = tok
  · subst e
    rw [slotAt_set_none_self]
    exact ⟨nofun, fun hm => absurd (List.mem_map_of_mem hm) gone⟩
  · rw [slotAt_set_ne e, same, perm.mem_iff, List.mem_cons, Prod.mk.injEq]
    simp [e]

/-! ## What the transport holds after a call -/

theorem Transport.rxHeld_beginRx (t : Transport) (tok i : Nat) : (t.beginRx tok i).rxHeld.Perm ((tok, i) :: t.rxHeld) := by
  simp only [Transport.rxHeld, Transport.beginRx, List.map_append, List.map_cons, List.map_nil, List.append_assoc]
  exact List.perm_middle

theorem Transport.txHeld_beginTx (t : Transport) (tok i nbytes : Nat) :
    (t.beginTx tok i nbytes).txHeld.Perm ((tok, i) :: t.txHeld) := by
  simp only [Transport.txHeld, Transport.beginTx, List.map_append, List.map_cons, List.map_nil, List.append_assoc]
  exact List.perm_middle

theorem Transport.rxHeld_consumeRx {t : Transport} {u : RxDone} {rest : List RxDone} (h : t.rxUsed = u :: rest) :
    t.rxHeld.Perm ((u.tok, u.entry) :: t.consumeRx.rxHeld) := by
  simp only [Transport.rxHeld, Transport.consumeRx, h, List.map_cons, List.tail_cons]
  exact List.perm_middle

theorem Transport.txHeld_consumeTx {t : Transport} {u : TxFlight} {rest : List TxFlight} (h : t.txUsed = u :: rest) :
    t.txHeld.Perm ((u.tok, u.entry) :: t.consumeTx.txHeld) := by
  simp only [Transport.txHeld, Transport.consumeTx, h, List.map_cons, List.tail_cons]
  exact List.perm_middle

/-! ## The moves -/

theorem TokenMove.tokensOk {g : Prop} {s t : State} (h : TokenMove g s t) (hg : g) (sizes : s.sizesOk) (k : s.tokensOk) :
    t.tokensOk := by
  obtain ⟨-, -, -, -, rxLength, txLength, -⟩ := sizes
  rw [State.tokensOk_iff] at k ⊢
  intro running
  obtain ⟨rx, tx⟩ := k (by rw [h.frame] at running; exact running)
  cases h with
  | restart => exact ⟨rx, tx⟩
  | submitRx _ _ _ inRing empty => exact ⟨rx.add (rxLength ▸ inRing) (empty hg) (Transport.rxHeld_beginRx _ _ _), tx⟩
  | submitTx _ _ inRing empty => exact ⟨rx, tx.add (txLength ▸ inRing) empty (Transport.txHeld_beginTx _ _ _ _)⟩
  | completeRx _ used sameToken sameEntry =>
    subst sameToken sameEntry
    exact ⟨rx.remove (Transport.rxHeld_consumeRx used), tx⟩
  | completeTx _ used sameToken sameEntry =>
    subst sameToken sameEntry
    exact ⟨rx, tx.remove (Transport.txHeld_consumeTx used)⟩
  | fill _ _ _ empty =>
    refine ⟨rx, ?_⟩
    rw [State.setTxBuffer_token, State.setFreeTx_token, State.setEnt_token, set_none_of_slotAt_none (empty hg)]
    exact tx
  | alloc => exact ⟨rx, tx⟩

theorem Move.tokensOk {g : Prop} {s t : State} (h : Move g s t) (hg : g) (sizes : s.sizesOk) (k : s.tokensOk) : t.tokensOk := by
  cases h with
  | env h => exact h.alike.tokensOk k
  | create => exact k
  | lend => exact k
  | giveBack => exact k
  | classic _ _ _ h => rw [h.frame]; exact k
  | token _ _ h => exact h.tokensOk hg sizes k

theorem Moves.tokensOk {g : Prop} {s t : State} (h : Moves g s t) (hg : g) (live : s.Live) (k : s.tokensOk) : t.tokensOk := by
  induction h with
  | refl => exact k
  | tail moves m ih => exact m.tokensOk hg (Moves.live moves hg live).sizes ih

theorem Ends.tokensOk {s t : State} (h : Ends s t) (k : s.tokensOk) : t.tokensOk := by
  cases h with
  | finish => exact k
  | ok1 => exact k
  | ok3 => exact k
  | raise => exact nofun
  | spin => exact k
  | abandon => exact nofun

/-- An operation keeps the agreement of the block with the transport. -/
theorem Run.tokensOk {s t : State} (h : Run s.Inv s t) (hs : s.halted = false) (k : s.Inv) (tokens : s.tokensOk) : t.tokensOk := by
  have live := k.live hs
  cases h with
  | plain moves ends => exact ends.tokensOk (moves.tokensOk k live tokens)
  | init moves pool rings _ ends =>
    exact ends.tokensOk (rings.tokensOk k ((moves.live k live).opened pool) (moves.tokensOk k live tokens))

end Sys2Proof.Machine
end

section
/-! Every operation taken apart into moves and an end: preambles, the codec, the pool and the classic ring driver. -/

namespace Sys2Proof.Machine

/-! ## Outcomes and preambles -/

/-- The next state of the outcome, if it has one, comes from `s` by a run. -/
def Runs (g : Prop) (s : State) (r : Result) : Prop := ∀ t, r = .next t → Run g s t

theorem Run.runs {g : Prop} {s t : State} (h : Run g s t) : Runs g s (.next t) := by
  rintro _ ⟨⟩
  exact h

/-- An outcome that stops the model has no next state. -/
theorem runs_fault (g : Prop) (s : State) (r : Fault) : Runs g s (.fault r) := by
  intro t h
  cases h

theorem Runs.of_moves {g : Prop} {s t : State} {r : Result} (m : Moves g s t) (h : Runs g t r) : Runs g s r :=
  fun u hu => (h u hu).of_moves m

theorem finish_st_ne {s : State} {k : Kind} (h : k ≠ .ok) : (s.finish k).st ≠ 0#8 := by
  cases k <;> simp_all [Kind.code]

theorem raise_st_ne {s : State} {c : Cause} : (s.raise c).st ≠ 0#8 := by simp

/-- A preamble that ends an operation ends it in one of the ways, and not with OK (R308). -/
def Stops (s : State) (c : Option State) : Prop := ∀ t, c = some t → Ends s t ∧ t.st ≠ 0#8

theorem Stops.orElse {s : State} {a b : Option State} (ha : Stops s a) (hb : Stops s b) : Stops s (a <|> b) := by
  intro t ht
  cases a with
  | none => exact hb t (by simpa using ht)
  | some u => exact ha t (by simpa using ht)

/-- A conditional end. -/
theorem Stops.ite {s t : State} {p : Prop} [Decidable p] (h : Ends s t) (hst : t.st ≠ 0#8) :
    Stops s (if p then some t else none) := by
  intro u hu
  split at hu <;> cases hu
  exact ⟨h, hst⟩

theorem haltCheck_running {s : State} (hs : s.halted = false) : haltCheck s = none := by simp [haltCheck, hs]

theorem stops_haltCheck {s : State} (hs : s.halted = false) : Stops s (haltCheck s) := by
  rw [haltCheck_running hs]
  intro t ht
  cases ht

theorem stops_queueCheck (q : Nat) (s : State) : Stops s (queueCheck q s) := by
  unfold queueCheck
  exact .ite (.finish nofun) (finish_st_ne nofun)

theorem stops_slotCheck (s : State) : Stops s (slotCheck s) := by
  unfold slotCheck
  exact .ite (.finish nofun) (finish_st_ne nofun)

theorem stops_initedCheck (s : State) : Stops s (initedCheck s) := by
  intro t ht
  unfold initedCheck at ht
  split at ht <;> cases ht
  exact ⟨.raise, raise_st_ne⟩

theorem stops_familyCheck (f : Family) (s : State) : Stops s (familyCheck f s) := by
  intro t ht
  unfold familyCheck at ht
  split at ht <;> cases ht
  exact ⟨.finish nofun, finish_st_ne nofun⟩

section
variable {g : Prop} {s : State} (hs : s.halted = false)
include hs

theorem stops_codecCheck (q : Nat) : Stops s (codecCheck q s) :=
  (stops_haltCheck hs).orElse ((stops_queueCheck q s).orElse (stops_slotCheck s))

theorem stops_crCheck : Stops s (crCheck s) :=
  (stops_haltCheck hs).orElse ((stops_familyCheck _ s).orElse (stops_initedCheck s))

theorem stops_crQueueCheck (q : Nat) : Stops s (crQueueCheck q s) := (stops_crCheck hs).orElse (stops_queueCheck q s)

theorem stops_trCheck : Stops s (trCheck s) :=
  (stops_haltCheck hs).orElse ((stops_familyCheck _ s).orElse (stops_initedCheck s))

theorem stops_initCheck (f : Family) : Stops s (initCheck f s) :=
  (stops_haltCheck hs).orElse ((stops_familyCheck _ s).orElse ((Stops.ite .raise raise_st_ne).orElse (.ite .raise raise_st_ne)))

end

/-- An operation after a preamble. -/
theorem Stops.run_getD {g : Prop} {s t : State} {c : Option State} (stops : Stops s c) (go : c = none → Run g s t) :
    Run g s (c.getD t) := by
  cases c with
  | none => exact go rfl
  | some u => exact .of_ends (stops u rfl).1

/-- An operation that ends with OK has passed its preamble (R308). -/
theorem Stops.passed {s t : State} {c : Option State} (stops : Stops s c) (ok : (c.getD t).st = 0#8) : c = none := by
  cases c with
  | none => rfl
  | some u => exact absurd ok (stops u rfl).2

/-- A change around the block and an end. -/
theorem EnvChange.run {g : Prop} {s u t : State} (h : EnvChange s u) (e : Ends u t) : Run g s t := .plain h.moves e

/-! ## Descriptor codec -/

section
variable {g : Prop} {s : State} (hs : s.halted = false) (q : Nat)
include hs

/-- A codec operation that reads or writes its descriptor and ends. -/
theorem codec_run {u t : State} (h : EnvChange s u) (e : Ends u t) : Runs g s (.next ((codecCheck q s).getD t)) :=
  Run.runs ((stops_codecCheck hs q).run_getD fun _ => h.run e)

theorem rxReadW0_run (f : Word → Word) : Runs g s (.next (rxReadW0 q f s)) := codec_run hs q s.envTurn_envChange .ok1

theorem rxReadW1_run (f : Word → Word) : Runs g s (.next (rxReadW1 q f s)) := codec_run hs q s.envTurn_envChange .ok1

theorem txReadField_run (off : Addr) (n : Nat) (f : Word → Word) : Runs g s (.next (txReadField q off n f s)) :=
  codec_run hs q s.envTurn_envChange .ok1

theorem execTxdWaitdd_run : Runs g s (execTxdWaitdd q s) := by
  refine Run.runs ((stops_codecCheck hs q).run_getD fun _ => s.envTurn_envChange.run ?_)
  simp only [State.memRead_snd]
  split
  · exact .finish nofun
  · exact .spin

end

/-! ## Buffer pool -/

theorem leaseAndEmit_run (g : Prop) (s : State) : Run g s (leaseAndEmit s) := by
  unfold leaseAndEmit
  cases h : s.lease with
  | none => exact .of_ends (.finish nofun)
  | some i =>
    obtain ⟨-, inPool, free⟩ := State.lease_some h
    exact .plain (.single (.lend inPool free)) .ok3

theorem reclaimAndRelease_run (g : Prop) (s : State) : Run g s (reclaimAndRelease s) := by
  unfold reclaimAndRelease
  cases h : s.reclaim s.handleIn with
  | none => exact .of_ends .raise
  | some i =>
    obtain ⟨-, -, lent, -⟩ := State.reclaim_some h
    exact .plain (.single (.giveBack lent)) (.finish nofun)

/-- `PoolCreate` (R181): nothing of the block on a refusal, and else the fresh pool. -/
theorem State.poolCreate_moves (g : Prop) {s : State} (absent : s.pool.present = false) (closed : s.inited = false) (count size : Nat) :
    ((s.poolCreate count size).1 = false ∧ EnvChange s (s.poolCreate count size).2) ∨
    ((s.poolCreate count size).1 = true ∧ Moves g s (s.poolCreate count size).2 ∧
      (s.poolCreate count size).2.pool = Pool.fresh count size) := by
  rcases s.poolCreate_cases count size with ⟨e, -⟩ | ⟨countFits, sizeFits, nonzero, ⟨-, e⟩ | ⟨granted, e⟩⟩
  · exact Or.inl (by rw [e]; exact ⟨rfl, .refl s⟩)
  · exact Or.inl (by rw [e]; exact ⟨rfl, s.askBacking_envChange _⟩)
  · rw [e]
    refine Or.inr ⟨rfl, ?_, rfl⟩
    have around : EnvChange s ((s.askBacking (count * size)).2.drawContents (count * size)) :=
      (s.askBacking_envChange _).trans (State.drawContents_envChange _ _)
    refine around.moves.tail (.create ?_ ?_ countFits sizeFits nonzero ?_)
    · rw [around.pool]; exact absent
    · rw [around.inited]; exact closed
    · rw [around.cfg]; exact State.askBacking_room granted

section
variable {g : Prop} {s : State} (hs : s.halted = false)
include hs

theorem execPoolAllocate_run : Runs g s (execPoolAllocate s) := by
  refine Run.runs ((stops_haltCheck hs).run_getD fun _ => ?_)
  split
  · exact .of_ends .raise
  · next h =>
    rw [Bool.or_eq_true, not_or, Bool.not_eq_true, Bool.not_eq_true] at h
    rcases State.poolCreate_moves g h.1 h.2 s.a0.toNat s.a1.toNat with ⟨e, around⟩ | ⟨e, moves, -⟩
    · exact around.run (.finish (by simp [e]))
    · exact .plain moves (.finish (by simp [e]))

theorem execPoolAlloc_run : Runs g s (execPoolAlloc s) := by
  refine Run.runs ((stops_haltCheck hs).run_getD fun _ => ?_)
  split
  · exact .of_ends (.finish nofun)
  · exact leaseAndEmit_run g s

theorem execPoolFree_run : Runs g s (execPoolFree s) :=
  Run.runs ((stops_haltCheck hs).run_getD fun _ => reclaimAndRelease_run g s)

theorem execPoolStat_run : Runs g s (execPoolStat s) := by
  refine Run.runs ((stops_haltCheck hs).run_getD fun _ => ?_)
  split <;> exact .of_ends .ok3

end

end Sys2Proof.Machine
end

section
/-! The operations of the classic ring driver, taken apart into moves and an end. -/

namespace Sys2Proof.Machine

/-! ## Classic ring: receive -/

/-- The classic ring driver works on queue `q`. -/
def State.ringOpen (s : State) (q : Nat) : Prop := s.cfg.family = .classic ∧ s.inited = true ∧ q < QN s.cfg

theorem State.ringOpen_of_check {q : Nat} {s : State} (h : crQueueCheck q s = none) : s.ringOpen q := by
  obtain ⟨⟨-, family, isOpen⟩, inRange⟩ := (crQueueCheck_none q s).mp h
  exact ⟨family, isOpen, inRange⟩

theorem Moves.ringOpen {g : Prop} {q : Nat} {s t : State} (m : Moves g s t) (h : s.ringOpen q) : t.ringOpen q := by
  unfold State.ringOpen
  rw [m.cfg, m.inited]
  exact h

theorem ClassicMove.moves {g : Prop} {q : Nat} {s t : State} (m : ClassicMove g q s t) (h : s.ringOpen q) : Moves g s t :=
  .single (.classic h.1 h.2.1 h.2.2 m)

/-- What draining a slot does to the block (R205): the buffer `i` of the slot to the software queue, the entry `j` into the slot. -/
def State.drainBlock (s : State) (q slot i j : Nat) (w : Word) : State :=
  ((s.setEnt i (fun e =>
      { e with pktLen := rxPktLen w, hdrLen := 0#64, cap := s.pool.esz.setWidth 64, tag := .swDriver })).setEnt j
    (fun _ => ⟨.hw, 0#64, 0#64, s.pool.esz.setWidth 64, none⟩)).setQueue q
    (fun r => { r with rxq := r.rxq ++ [i], rxBuf := r.rxBuf.set slot (some j), rxIndex := ringNext s.cfg r.rxIndex })

theorem drainSlot_envChange (q slot i j : Nat) (w : Word) (s : State) :
    EnvChange (s.drainBlock q slot i j w) (drainSlot q slot i j w s) := by
  unfold drainSlot
  dsimp only
  have around := fun t : State => (t.rxSetAddr_envChange (rxd s.cfg q slot) (t.physOf j)).trans
    (State.rxRstStat_envChange _ (rxd s.cfg q slot))
  convert ((around _).setTag j .hw).setQueue q (fun r => { r with rxIndex := ringNext s.cfg r.rxIndex }) using 1
  simp [State.drainBlock, State.setQueue, State.setEnt, State.setTag, State.clearEnt, List.modify_modify_eq, Function.comp_def]

theorem drainSlot_moves {g : Prop} {q slot i j : Nat} {s : State} (h : s.ringOpen q) (held : slotAt (s.queue q).rxBuf slot = some i)
    (lease : s.lease = some j) (room : (s.queue q).rxq.length < rxBatchSize) (w : Word) : Moves g s (drainSlot q slot i j w s) := by
  obtain ⟨-, inPool, free⟩ := State.lease_some lease
  have move : ClassicMove g q s (s.drainBlock q slot i j w) :=
    .drain held (fun _ => ⟨rfl, rfl⟩) inPool free (fun _ => ⟨rfl, rfl⟩) room
  exact (move.moves h).trans (drainSlot_envChange q slot i j w s).moves

/-- Draining a slot puts one packet on the software queue. -/
theorem drainSlot_rxq_length (q slot i j : Nat) (w : Word) (s : State) :
    ((drainSlot q slot i j w s).queue q).rxq.length ≤ (s.queue q).rxq.length + 1 := by
  rw [(drainSlot_envChange q slot i j w s).queue]
  simp only [State.queue, State.drainBlock, State.setQueue_queues, State.setEnt_queues, List.getD, List.getElem?_modify_eq]
  cases s.queues[q]? <;> simp

/-- A batch is a run of moves: each slot drained is one (R205). -/
theorem rxBatch_moves {g : Prop} {q fuel : Nat} (n : Nat) {s : State} (h : s.ringOpen q)
    (room : (s.queue q).rxq.length + fuel ≤ rxBatchSize) : Moves g s (rxBatch q fuel n s).2.2 := by
  induction fuel generalizing n s with
  | zero => exact .refl
  | succ fuel ih =>
    have turn : Moves g s s.envTurn := s.envTurn_envChange.moves
    unfold rxBatch
    dsimp only
    split
    · exact turn
    split
    · exact turn
    split
    · exact turn
    next j lease =>
    split
    · exact turn
    next i held =>
    have same : (s.envTurn.queue q).rxq = (s.queue q).rxq := by rw [s.envTurn_envChange.queue]
    have drained := drainSlot_moves (g := g) (turn.ringOpen h) held lease (by rw [same]; omega)
      (s.envTurn.mem.load (rxd s.cfg q (s.queue q).rxIndex.toNat + 8#64) 8)
    have one : Moves g s _ := turn.trans drained
    refine one.trans (ih (n + 1) (one.ringOpen h) ?_)
    have := drainSlot_rxq_length q (s.queue q).rxIndex.toNat i j
      (s.envTurn.mem.load (rxd s.cfg q (s.queue q).rxIndex.toNat + 8#64) 8) s.envTurn
    rw [same] at this
    omega

theorem popAndEmit_run {g : Prop} {q : Nat} {s : State} (h : s.ringOpen q) : Runs g s (popAndEmit q s) := by
  unfold popAndEmit
  split
  · exact runs_fault _ _ _
  · next i rest front => exact Run.runs (.plain (ClassicMove.moves (.pop front) h) .ok3)

theorem crRxBody_run {g : Prop} {q : Nat} {s : State} (h : s.ringOpen q) : Runs g s (crRxBody q s) := by
  have turn : EnvChange s s.envTurn := s.envTurn_envChange
  unfold crRxBody
  dsimp only
  split
  · exact popAndEmit_run h
  next empty =>
  split
  · exact Run.runs (turn.run (.finish nofun))
  have batch : Moves g s (rxBatch q rxBatchSize 0 s.envTurn).2.2 := by
    refine turn.moves.trans (rxBatch_moves 0 (turn.moves.ringOpen (g := g) h) ?_)
    rw [turn.queue, not_not.mp empty, List.length_nil, Nat.zero_add]
  split
  · exact runs_fault _ _ _
  · exact Run.runs (.plain batch .raise)
  · split
    · exact Run.runs (.plain batch .raise)
    · exact .of_moves batch (popAndEmit_run (batch.ringOpen h))

section
variable {g : Prop} {s : State} (hs : s.halted = false) (q : Nat)
include hs

theorem execCrCanrx_run : Runs g s (execCrCanrx q s) := by
  refine Run.runs ((stops_crQueueCheck hs q).run_getD fun _ => ?_)
  split
  · exact .of_ends .ok1
  · exact s.envTurn_envChange.run .ok1

theorem execCrRx_run : Runs g s (execCrRx q s) := by
  unfold execCrRx
  split
  · next t stopped => exact Run.runs (.of_ends (stops_crQueueCheck hs q t stopped).1)
  · next passed => exact crRxBody_run (State.ringOpen_of_check passed)

end

/-! ## Transmit -/

theorem crTxBody_run {g : Prop} {q i : Nat} {s : State} (h : s.ringOpen q) (lent : (s.entry i).tag = .swStack) :
    Run g s (crTxBody q i s) := by
  simp only [crTxBody]
  split
  · exact .of_ends (.finish nofun)
  next room =>
  have sent := s.txSend_envChange (txd s.cfg q (s.queue q).txIndex.toNat) (s.physOf i + (s.entry i).hdrLen) (s.entry i).pktLen
  refine .plain ((ClassicMove.moves (.send (f := fun e => { e with wire := none, tag := .hw }) lent (fun _ => ⟨rfl, rfl⟩)
    (by simpa using room)) h).trans ?_) (.finish nofun)
  have after := ((sent.setQueue q (fun r => { r with txBuf := r.txBuf.set (s.queue q).txIndex.toNat (some i) })).setEnt i
    (fun e => { e with wire := none, tag := .hw })).setQueue q (fun r => { r with txIndex := ringNext s.cfg r.txIndex })
  convert after.moves (g := g) using 1
  simp [State.setQueue, State.setEnt, List.modify_modify_eq, Function.comp_def]

/-- The loop of `CR.TXRECYCLE` is a run of moves: each slot reclaimed is one (R209). -/
theorem txReclaim_moves {g : Prop} {q fuel : Nat} {s : State} (h : s.ringOpen q) : Moves g s (txReclaim q fuel s) := by
  induction fuel generalizing s with
  | zero => exact .refl
  | succ fuel ih =>
    have turn : EnvChange s s.envTurn := s.envTurn_envChange
    unfold txReclaim
    dsimp only
    split
    · exact .refl
    next i held =>
    split
    · exact turn.moves
    have after := ((turn.setQueue q (fun r => { r with txBuf := r.txBuf.set (s.queue q).txClean.toNat none })).setEnt i
      (fun e => { e with tag := .free, wire := none })).setQueue q (fun r => { r with txClean := ringNext s.cfg r.txClean })
    have one : Moves g s _ := (ClassicMove.moves (.clean held) h).trans (by
      convert after.moves (g := g) using 1
      simp [State.setQueue, State.setEnt, State.release, List.modify_modify_eq, Function.comp_def])
    exact one.trans (ih (one.ringOpen h))

section
variable {g : Prop} {s : State} (hs : s.halted = false)
include hs

theorem execCrRxrecycle_run : Runs g s (execCrRxrecycle s) :=
  Run.runs ((stops_crCheck hs).run_getD fun _ => reclaimAndRelease_run g s)

theorem execCrCantx_run (q : Nat) : Runs g s (execCrCantx q s) :=
  Run.runs ((stops_crQueueCheck hs q).run_getD fun _ => .of_ends .ok1)

theorem execCrTx_run (q : Nat) : Runs g s (execCrTx q s) := by
  refine Run.runs ((stops_crQueueCheck hs q).run_getD fun h => ?_)
  split
  · exact .of_ends .raise
  · next i accepted =>
    obtain ⟨-, -, lent, -⟩ := State.reclaim_some accepted
    exact crTxBody_run (State.ringOpen_of_check h) lent

theorem execCrTxrecycle_run (q : Nat) : Runs g s (execCrTxrecycle q s) :=
  Run.runs ((stops_crQueueCheck hs q).run_getD fun h => .plain (txReclaim_moves (State.ringOpen_of_check h)) (.finish nofun))

theorem execCrTxalloc_run : Runs g s (execCrTxalloc s) := by
  refine Run.runs ((stops_crCheck hs).run_getD fun _ => ?_)
  split
  · exact .of_ends (.finish nofun)
  · exact leaseAndEmit_run g s

end

end Sys2Proof.Machine
end

section
/-! `CR.INIT` (R201): its loops as moves of an initialised block, and why every Rx slot is full at their end: the pool has an entry for
each, and only an Rx slot holds one. -/

namespace Sys2Proof.Machine

/-- What holds of a loop over `0 .. n - 1` at its end, if each turn takes it one further. -/
theorem foldl_range_induct {σ : Type} {P : Nat → σ → Prop} {f : σ → Nat → σ} {n : Nat} {s : σ} (start : P 0 s)
    (turn : ∀ k < n, ∀ t, P k t → P (k + 1) (f t k)) : P n ((List.range n).foldl f s) := by
  induction n with
  | zero => exact start
  | succ n ih =>
    rw [List.range_succ, List.foldl_append]
    exact turn n (Nat.lt_succ_self n) _ (ih fun k hk => turn k (Nat.lt_succ_of_lt hk))

theorem EnvChange.opened {s t : State} (h : EnvChange s t) : EnvChange s.opened t.opened where
  same := by rw [h.same]; rfl
  evolves := ⟨h.evolves.1, h.evolves.2, h.evolves.3, h.evolves.4, h.evolves.5⟩

/-! ## What one turn of each loop does to the block -/

/-- Rx slot `slot` of queue `q` armed with entry `i` (R201). -/
def State.armed (s : State) (q slot i : Nat) : State :=
  (s.setEnt i (fun _ => ⟨.hw, 0#64, 0#64, s.pool.esz.setWidth 64, none⟩)).setQueue q
    (fun r => { r with rxBuf := r.rxBuf.set slot (some i) })

theorem armRxSlot_of_lease_none {q slot : Nat} {s : State} (h : s.lease = none) : EnvChange s (armRxSlot q s slot) := by
  have around := s.rxInit_envChange (rxd s.cfg q slot)
  unfold armRxSlot
  dsimp only
  split
  · exact around
  · next i some => rw [around.lease, h] at some; cases some

theorem armRxSlot_of_lease_some {q slot i : Nat} {s : State} (h : s.lease = some i) :
    EnvChange (s.armed q slot i) (armRxSlot q s slot) := by
  have around := s.rxInit_envChange (rxd s.cfg q slot)
  unfold armRxSlot
  dsimp only
  split
  · next none => rw [around.lease, h] at none; cases none
  next i' some =>
  rw [around.lease, h] at some
  cases some
  have before := (around.setEnt i (fun _ => ⟨.hw, 0#64, 0#64, s.pool.esz.setWidth 64, none⟩)).setQueue q
    (fun r => { r with rxBuf := r.rxBuf.set slot (some i) })
  have after := fun t : State => (t.rxSetAddr_envChange (rxd s.cfg q slot) (t.physOf i)).setTag i .hw
  refine before.trans ?_
  convert after _ using 1
  simp [State.setQueue, State.setEnt, State.setTag, State.clearEnt, List.modify_modify_eq, Function.comp_def, around.pool]

theorem clearTxSlot_envChange (q slot : Nat) (s : State) :
    EnvChange (s.setQueue q (fun r => { r with txBuf := r.txBuf.set slot none })) (clearTxSlot q s slot) :=
  (s.txInit_envChange _).setQueue q _

/-! ## The block while `CR.INIT` fills its rings -/

/-- The block during `CR.INIT`: it is alive as an initialised one, entries are free or in an Rx slot, and there are enough of them. -/
structure State.Filling (s : State) : Prop where
  live : s.opened.Live
  family : s.cfg.family = .classic
  tags : ∀ i, (s.entry i).tag = .free ∨ (s.entry i).tag = .hw
  noTx : ∀ r ∈ s.queues, ∀ o ∈ r.txBuf, o = none
  stock : QN s.cfg * QS s.cfg ≤ s.pool.ent.length

theorem State.Filling.envChange {s t : State} (k : s.Filling) (h : EnvChange s t) : t.Filling where
  live := k.live.alike h.opened.alike
  family := by rw [h.cfg]; exact k.family
  tags i := by rw [h.entry]; exact k.tags i
  noTx := by rw [h.queues]; exact k.noTx
  stock := by rw [h.cfg, h.pool]; exact k.stock

theorem State.Filling.queues_length {s : State} (k : s.Filling) : s.queues.length = QN s.cfg := k.live.sizes.1

theorem State.Filling.record {s : State} (k : s.Filling) {r : Queue} (hr : r ∈ s.queues) : r.sizesOk s.cfg := k.live.sizes.2.1 r hr

/-- The sum over a list of numbers none of which is above a bound and one of which is below it. -/
theorem sum_map_lt {α : Type} {f : α → Nat} {b : Nat} {l : List α} (le : ∀ x ∈ l, f x ≤ b) (lt : ∃ x ∈ l, f x < b) :
    (l.map f).sum < l.length * b := by
  have := List.sum_lt_sum f (fun _ => b) le lt
  simpa using this

/-- While an Rx slot is empty there is a free entry: the other slots do not use up the pool. -/
theorem State.Filling.lease {s : State} (k : s.Filling) {q slot : Nat} (hq : q < QN s.cfg) (hslot : slot < QS s.cfg)
    (empty : slotAt (s.queue q).rxBuf slot = none) : ∃ i, s.lease = some i := by
  by_contra hno
  have noLease : s.lease = none := by
    cases h : s.lease with
    | none => rfl
    | some i => exact absurd ⟨i, h⟩ hno
  obtain ⟨-, -, -, -, -, -, -, -, -, hasPool⟩ := k.live.sizes
  have poolPresent : s.pool.present = true := hasPool rfl
  have hlen : q < s.queues.length := k.queues_length ▸ hq
  have noFree : s.pool.freeEntries = [] := by
    rcases State.lease_none.mp noLease with h | h
    · rw [poolPresent] at h; cases h
    · exact h
  -- so every entry is in a slot ...
  have all : List.range s.pool.ent.length ⊆ s.installed := fun i hi => by
    have notFree : (s.entry i).tag ≠ .free := fun free => by
      have := (Pool.mem_freeEntries s.pool i).mpr ⟨List.mem_range.mp hi, free⟩
      rw [noFree] at this
      cases this
    exact (State.owned_hw_iff k.live.owned i).mp ((k.tags i).resolve_left notFree)
  -- ... but the slots hold fewer buffers than there are entries
  obtain ⟨-, noRx, noTx⟩ := k.live.tokenIdle (Or.inl k.family)
  have bound : ∀ r ∈ s.queues, (present r.rxBuf ++ present r.txBuf).length ≤ QS s.cfg := fun r hr => by
    rw [present_eq_nil (k.noTx r hr), List.append_nil, ← (k.record hr).1]
    exact List.length_filterMap_le _ _
  have strict : (present (s.queue q).rxBuf ++ present (s.queue q).txBuf).length < QS s.cfg := by
    have mem : s.queue q ∈ s.queues := State.queue_mem hlen
    have length := (k.record mem).1
    rw [present_eq_nil (k.noTx _ mem), List.append_nil]
    exact length ▸ length_present_lt (length ▸ hslot) empty
  have few : s.installed.length < QN s.cfg * QS s.cfg := by
    have := sum_map_lt bound ⟨_, State.queue_mem hlen, strict⟩
    rw [k.queues_length, ← List.length_flatMap] at this
    have rx : present s.token.rxBuffers = [] := present_eq_nil noRx
    have tx : present s.token.txBuffers = [] := present_eq_nil noTx
    rwa [State.installed, rx, tx, List.append_nil, List.append_nil]
  have many := (List.nodup_range.subperm all).length_le
  rw [List.length_range] at many
  exact absurd (lt_of_lt_of_le few (k.stock.trans many)) (lt_irrefl _)

/-- `CR.INIT` begun at `s` has come to Rx slot `k` of queue `q`: it got there by moves of an initialised block, and, where it began in the
invariant, exactly the slots from there on are empty. -/
structure InitAt (g : Prop) (s : State) (q k : Nat) (t : State) : Prop where
  cfg : t.cfg = s.cfg
  moves : Moves g s.opened t.opened
  filling : g → t.Filling
  empty : g → ∀ r < QN s.cfg, ∀ x < QS s.cfg, (slotAt (t.queue r).rxBuf x = none ↔ q < r ∨ (r = q ∧ k ≤ x))

section
variable {g : Prop} {s t u : State} {q k : Nat}

theorem InitAt.envChange (h : InitAt g s q k t) (e : EnvChange t u) : InitAt g s q k u where
  cfg := e.cfg.trans h.cfg
  moves := h.moves.trans e.opened.moves
  filling hg := (h.filling hg).envChange e
  empty hg r hr x hx := by rw [e.queue]; exact h.empty hg r hr x hx

/-- The move of a classic ring in an initialised block. -/
theorem InitAt.opened_moves (h : InitAt g s q k t) (family : s.cfg.family = .classic) (hq : q < QN s.cfg)
    (move : ClassicMove g q t.opened u.opened) : Moves g t.opened u.opened :=
  move.moves ⟨by rw [State.opened, h.cfg]; exact family, rfl, by rw [State.opened, h.cfg]; exact hq⟩

/-- A change of one queue's record that leaves its Rx slots and puts nothing into its Tx slots. -/
theorem InitAt.setQueue {f : Queue → Queue} (h : InitAt g s q k t) (family : s.cfg.family = .classic) (hq : q < QN s.cfg)
    (move : ClassicMove g q t.opened (t.setQueue q f).opened) (rx : ∀ r : Queue, (f r).rxBuf = r.rxBuf)
    (tx : ∀ r : Queue, (∀ o ∈ r.txBuf, o = none) → ∀ o ∈ (f r).txBuf, o = none) : InitAt g s q k (t.setQueue q f) where
  cfg := h.cfg
  moves := h.moves.trans (h.opened_moves family hq move)
  filling hg :=
    have fill := h.filling hg
    { fill with
      live := (h.opened_moves family hq move).live hg fill.live
      noTx := State.forall_mem_setQueue fill.noTx (tx _) }
  empty hg r hr x hx := by
    have kept : ((t.setQueue q f).queue r).rxBuf = (t.queue r).rxBuf := by
      simp only [State.queue, State.setQueue_queues, List.getD, List.getElem?_modify]
      cases t.queues[r]? with
      | none => rfl
      | some v => by_cases e : q = r <;> simp [e, rx]
    rw [kept]
    exact h.empty hg r hr x hx

variable (family : s.cfg.family = .classic) (hq : q < QN s.cfg)
include family hq

/-- The next Rx slot armed with the entry that is leased. -/
theorem InitAt.armed {i : Nat} (h : InitAt g s q k t) (hk : k < QS s.cfg) (lease : t.lease = some i) :
    InitAt g s q (k + 1) (t.armed q k i) := by
  obtain ⟨-, inPool, free⟩ := State.lease_some lease
  have move : ClassicMove g q t.opened (t.armed q k i).opened :=
    .arm (s := t.opened) inPool free (fun _ => ⟨rfl, rfl⟩) (by rw [State.opened, h.cfg]; exact hk)
      fun hg => (h.empty hg q hq k hk).mpr (Or.inr ⟨rfl, le_rfl⟩)
  refine ⟨h.cfg, h.moves.trans (h.opened_moves family hq move), fun hg => ?_, fun hg => ?_⟩
  · have fill := h.filling hg
    refine ⟨(h.opened_moves family hq move).live hg fill.live, fill.family, fun j => ?_, State.forall_mem_setQueue fill.noTx id, ?_⟩
    · have entry : (t.armed q k i).entry j = if j = i then ⟨.hw, 0#64, 0#64, t.pool.esz.setWidth 64, none⟩ else t.entry j :=
        State.entry_setEnt inPool _ j
      rw [entry]
      split
      · exact Or.inr rfl
      · exact fill.tags j
    · simpa [State.armed] using fill.stock
  · have fill := h.filling hg
    have hlen : q < t.queues.length := by rw [fill.queues_length, h.cfg]; exact hq
    have length : (t.queue q).rxBuf.length = QS s.cfg := h.cfg ▸ (fill.record (State.queue_mem hlen)).1
    have same : (t.armed q k i).queue q = { t.queue q with rxBuf := (t.queue q).rxBuf.set k (some i) } :=
      State.queue_setQueue_self (s := t.setEnt i _) hlen _
    intro r hr x hx
    have before := h.empty hg r hr x hx
    by_cases e : r = q
    · subst e
      rw [same]
      by_cases ex : x = k
      · subst ex
        rw [slotAt_set_self (length ▸ hk)]
        simp
      · rw [slotAt_set_ne ex, before]
        omega
    · have other : (t.armed q k i).queue r = t.queue r := State.queue_setQueue_ne (s := t.setEnt i _) e _
      rw [other, before]
      omega

theorem InitAt.arm (h : InitAt g s q k t) (hk : k < QS s.cfg) : InitAt g s q (k + 1) (armRxSlot q t k) := by
  cases lease : t.lease with
  | some i => exact (h.armed family hq hk lease).envChange (armRxSlot_of_lease_some lease)
  | none =>
    -- the pool is never used up here, where the run began in the invariant
    have impossible : ¬ g := fun hg => by
      have empty := (h.empty hg q hq k hk).mpr (Or.inr ⟨rfl, le_rfl⟩)
      obtain ⟨i, hi⟩ := (h.filling hg).lease (h.cfg ▸ hq) (h.cfg ▸ hk) empty
      rw [lease] at hi
      cases hi
    have e := armRxSlot_of_lease_none (q := q) (slot := k) lease
    exact ⟨e.cfg.trans h.cfg, h.moves.trans e.opened.moves, fun hg => absurd hg impossible, fun hg => absurd hg impossible⟩

theorem InitAt.clearTx (h : InitAt g s q k t) (slot : Nat) : InitAt g s q k (clearTxSlot q t slot) := by
  have empty : g → slotAt (t.queue q).txBuf slot = none := fun hg => by
    have fill := h.filling hg
    have hlen : q < t.queues.length := by rw [fill.queues_length, h.cfg]; exact hq
    exact (forall_mem_none_iff _).mp (fill.noTx _ (State.queue_mem hlen)) slot
  exact (h.setQueue family hq (.clearTx (s := t.opened) empty) (fun _ => rfl) fun _ h => forall_mem_set slot h rfl).envChange
    (clearTxSlot_envChange q slot t)

/-- The indices and the software queue of queue `q` (R201). -/
theorem InitAt.restart (h : InitAt g s q k t) :
    InitAt g s q k (t.setQueue q (fun r => { r with rxIndex := 0#16, txIndex := 0#16, txClean := 0#16, rxq := [] })) := by
  refine h.setQueue family hq (.restart (s := t.opened) fun hg => ?_) (fun _ => rfl) fun _ h => h
  have fill := h.filling hg
  have hlen : q < t.queues.length := by rw [fill.queues_length, h.cfg]; exact hq
  refine ⟨List.eq_nil_iff_forall_not_mem.mpr fun i hi => ?_, fill.noTx _ (State.queue_mem hlen)⟩
  have tag : (t.entry i).tag = .swDriver := State.owned_swDriver_of_rxq fill.live.owned hlen hi
  rcases fill.tags i with e | e <;> rw [tag] at e <;> cases e

/-- One queue of `CR.INIT`. -/
theorem InitAt.initQueue (h : InitAt g s q 0 t) : InitAt g s (q + 1) 0 (initQueue t q) := by
  have next : EnvChange (t.setQueue q (fun r => { r with rxIndex := 0#16, txIndex := 0#16, txClean := 0#16, rxq := [] })) _ :=
    .of_rxNext (q := q) (n := 0) (w := t.nic.work) id id
  have rx := foldl_range_induct (P := fun k u => InitAt g s q k u) (f := armRxSlot q) ((h.restart family hq).envChange next)
    fun k hk u hu => hu.arm family hq hk
  have tx := foldl_range_induct (P := fun _ u => InitAt g s q (QS s.cfg) u) (f := clearTxSlot q) (n := QS s.cfg) rx
    fun k _ u hu => hu.clearTx family hq k
  have all : InitAt g s q (QS s.cfg) (Machine.initQueue t q) := by
    unfold Machine.initQueue
    rw [h.cfg]
    exact tx
  refine { all with empty := fun hg r hr x hx => ?_ }
  rw [all.empty hg r hr x hx]
  omega

end

/-- The block after `PoolCreate` is ready for the loops, where the run began in the invariant (R201). -/
theorem InitAt.start {g : Prop} {s : State} (pool : s.pool.present = true) (family : s.cfg.family = .classic)
    (closed : s.inited = false) (live : g → s.Live) (free : ∀ i, (s.entry i).tag = .free)
    (stock : QN s.cfg * QS s.cfg ≤ s.pool.ent.length) : InitAt g s 0 0 s where
  cfg := rfl
  moves := .refl
  filling hg := ⟨(live hg).opened pool, family, fun i => Or.inl (free i),
    fun r hr => ((live hg).queuesIdle (Or.inr closed) r hr).2.2, stock⟩
  empty hg r hr x hx := by
    have hlen : r < s.queues.length := (live hg).sizes.1 ▸ hr
    have blank := (live hg).queuesIdle (Or.inr closed) _ (State.queue_mem hlen)
    simp only [(forall_mem_none_iff _).mp blank.2.1 x, true_iff]
    omega

/-- At the end of the loops every Rx slot has a buffer (R40). -/
theorem InitAt.fullRx {g : Prop} {s t : State} (h : InitAt g s (QN s.cfg) 0 t) (hg : g) : t.opened.fullRx := by
  intro _ _ r hr o ho none
  have fill := h.filling hg
  obtain ⟨q, hq, rfl⟩ := List.getElem_of_mem hr
  obtain ⟨x, hx, rfl⟩ := List.getElem_of_mem ho
  have queue : t.queue q = t.queues[q] := by
    have := State.getElem?_queue hq
    rw [List.getElem?_eq_getElem hq] at this
    exact (Option.some.inj this).symm
  have length : t.queues[q].rxBuf.length = QS s.cfg := h.cfg ▸ (fill.record (List.getElem_mem hq)).1
  have hq' : q < QN s.cfg := by rw [← h.cfg, ← fill.queues_length]; exact hq
  have empty : slotAt (t.queue q).rxBuf x = Option.none := by
    rw [queue, ← none]
    exact List.getD_eq_getElem _ _ hx
  have := (h.empty hg q hq' x (length ▸ hx)).mp empty
  omega

theorem crInitBody_run {s : State} (hs : s.halted = false) (absent : s.pool.present = false) (closed : s.inited = false)
    (family : s.cfg.family = .classic) : Run s.Inv s (crInitBody s) := by
  unfold crInitBody
  split
  · exact .of_ends (.finish nofun)
  next enough =>
  dsimp only
  rcases State.poolCreate_moves s.Inv absent closed s.cfg.poolN.toNat s.cfg.poolEsz.toNat with ⟨e, around⟩ | ⟨e, moves, pool⟩
  · rw [if_neg (by simp [e])]
    exact around.run (.finish nofun)
  · rw [if_pos e]
    generalize (s.poolCreate s.cfg.poolN.toNat s.cfg.poolEsz.toNat).2 = u at moves pool
    have free : ∀ i, (u.entry i).tag = .free := fun i => by
      simp only [State.entry, pool, Pool.fresh, List.getD, List.getElem?_replicate]
      split <;> rfl
    have start : InitAt s.Inv u 0 0 u :=
      .start (by rw [pool]; rfl) (by rw [moves.cfg]; exact family) (by rw [moves.inited]; exact closed)
        (fun inv => moves.live inv (inv.live hs)) free
        (by rw [moves.cfg, pool]; simpa [Pool.fresh] using enough)
    have loops : InitAt s.Inv u (QN s.cfg) 0 ((List.range (QN s.cfg)).foldl initQueue u) :=
      foldl_range_induct (P := fun q t => InitAt s.Inv u q 0 t) start fun q hq t ht =>
        ht.initQueue (by rw [moves.cfg]; exact family) (by rw [moves.cfg]; exact hq)
    exact .init moves (by rw [pool]; rfl) loops.moves (InitAt.fullRx (by rw [moves.cfg]; exact loops)) (.finish nofun)

theorem execCrInit_run {s : State} (hs : s.halted = false) : Runs s.Inv s (execCrInit s) := by
  refine Run.runs ((stops_initCheck hs _).run_getD fun h => ?_)
  obtain ⟨-, family, closed, absent⟩ := (initCheck_none _ s).mp h
  exact crInitBody_run hs absent closed family

end Sys2Proof.Machine
end

section
/-! The operations of the token ring driver and the contract, taken apart into moves and an end; and so every operation. -/

namespace Sys2Proof.Machine

/-! ## The token ring at work -/

/-- The token ring driver works. -/
def State.tokenOpen (s : State) : Prop := s.cfg.family = .token ∧ s.inited = true

theorem State.tokenOpen_of_check {s : State} (h : trCheck s = none) : s.tokenOpen := ((trCheck_none s).mp h).2

theorem EnvChange.tokenOpen {s t : State} (h : EnvChange s t) (k : s.tokenOpen) : t.tokenOpen := by
  unfold State.tokenOpen
  rw [h.cfg, h.inited]
  exact k

theorem Moves.tokenOpen {g : Prop} {s t : State} (m : Moves g s t) (h : s.tokenOpen) : t.tokenOpen := by
  unfold State.tokenOpen
  rw [m.cfg, m.inited]
  exact h

theorem TokenMove.moves {g : Prop} {s t : State} (m : TokenMove g s t) (h : s.tokenOpen) : Moves g s t :=
  .single (.token h.1 h.2 m)

/-- Handing an entry to the transport for receiving (R287): it is full, or the entry is in flight under a token of its choice. -/
theorem State.receiveBegin_setEnt (s : State) (i : Nat) (f : Entry → Entry) : ∃ u, EnvChange s u ∧
    ((((s.setEnt i f).receiveBegin i).1 = .full ∧ ((s.setEnt i f).receiveBegin i).2 = u.setEnt i f) ∨
      ∃ tok, ((s.setEnt i f).receiveBegin i).1 = .ok tok ∧
        ((s.setEnt i f).receiveBegin i).2 = { u.setEnt i f with transport := u.transport.beginRx tok i }) := by
  rcases (s.setEnt i f).receiveBegin_cases i with ⟨full, around⟩ | ⟨tok, v, ok, around, e⟩
  · obtain ⟨u, before, after⟩ := around.exists_of_setEnt
    exact ⟨u, before, Or.inl ⟨full, after⟩⟩
  · obtain ⟨u, before, rfl⟩ := around.exists_of_setEnt
    exact ⟨u, before, Or.inr ⟨tok, ok, e⟩⟩

/-- Handing an entry to the transport for sending (R290). -/
theorem State.transmitBegin_setEnt (s : State) (i nbytes : Nat) (f : Entry → Entry) : ∃ u, EnvChange s u ∧
    ((((s.setEnt i f).transmitBegin i nbytes).1 = .full ∧ ((s.setEnt i f).transmitBegin i nbytes).2 = u.setEnt i f) ∨
      ∃ tok, ((s.setEnt i f).transmitBegin i nbytes).1 = .ok tok ∧
        ((s.setEnt i f).transmitBegin i nbytes).2 = { u.setEnt i f with transport := u.transport.beginTx tok i nbytes }) := by
  rcases (s.setEnt i f).transmitBegin_cases i nbytes with ⟨full, around⟩ | ⟨tok, v, ok, around, e⟩
  · obtain ⟨u, before, after⟩ := around.exists_of_setEnt
    exact ⟨u, before, Or.inl ⟨full, after⟩⟩
  · obtain ⟨u, before, rfl⟩ := around.exists_of_setEnt
    exact ⟨u, before, Or.inr ⟨tok, ok, e⟩⟩

/-- A halt with an entry handed over and in no slot, whatever the transport holds. -/
theorem Ends.abandoned (s : State) {f : Entry → Entry} (hands : HandsOver f) (i : Nat) (tr : Transport) (c : Cause) :
    Ends s (State.raise { s.setEnt i f with transport := tr } c) :=
  .abandon (b := s.inited) hands id

/-- The same inside `TR.INIT`, which has not set its latch yet. -/
theorem Ends.abandoned_opened (s : State) {f : Entry → Entry} (hands : HandsOver f) (i : Nat) (tr : Transport) (c : Cause) :
    Ends s.opened (State.raise { s.setEnt i f with transport := tr } c) :=
  .abandon (b := s.inited) hands fun _ => rfl

/-! ## `TR.INIT` (R231) -/

/-- Entry `i` handed over with empty metadata (R231). -/
def State.handedOver (s : State) (i : Nat) : State := s.setEnt i (fun _ => ⟨.hw, 0#64, 0#64, s.pool.esz.setWidth 64, none⟩)

/-- Entry `i` in flight for receiving under the token `tok`, with its slot. -/
def State.submitted (s : State) (tok i : Nat) : State :=
  { (s.handedOver i).setRxBuffer tok (some i) with transport := s.transport.beginRx tok i }

theorem State.receiveBegin_handedOver (s : State) (i : Nat) : ∃ u, EnvChange s u ∧
    ((((s.handedOver i).receiveBegin i).1 = .full ∧ ((s.handedOver i).receiveBegin i).2 = u.handedOver i) ∨
      ∃ tok, ((s.handedOver i).receiveBegin i).1 = .ok tok ∧
        ((s.handedOver i).receiveBegin i).2 = { u.handedOver i with transport := u.transport.beginRx tok i }) := by
  obtain ⟨u, around, answer⟩ := s.receiveBegin_setEnt i (fun _ => ⟨.hw, 0#64, 0#64, s.pool.esz.setWidth 64, none⟩)
  have same : u.setEnt i (fun _ => ⟨.hw, 0#64, 0#64, s.pool.esz.setWidth 64, none⟩) = u.handedOver i := by
    rw [State.handedOver, around.pool]
  rw [same] at answer
  exact ⟨u, around, answer⟩

/-- One submission of `TR.INIT`: under the expected token, or the halt. -/
theorem submitRx_cons {tok i : Nat} {ts : List Nat} {s : State} (lease : s.lease = some i) : ∃ u, EnvChange s u ∧
    (submitRx (tok :: ts) s = submitRx ts (u.submitted tok i) ∨
      ∃ tr, submitRx (tok :: ts) s = State.raise { u.handedOver i with transport := tr } .tokenMismatch) := by
  have entry : (s.clearEnt i).setTag i .hw = s.handedOver i := by
    simp [State.handedOver, State.setEnt, State.setTag, State.clearEnt, List.modify_modify_eq, Function.comp_def]
  have equation : submitRx (tok :: ts) s =
      if ((s.handedOver i).receiveBegin i).1 = .ok tok then
        submitRx ts (((s.handedOver i).receiveBegin i).2.setRxBuffer tok (some i))
      else ((s.handedOver i).receiveBegin i).2.raise .tokenMismatch := by
    rw [← entry, submitRx, lease]
  obtain ⟨u, around, answer⟩ := s.receiveBegin_handedOver i
  refine ⟨u, around, ?_⟩
  rw [equation]
  rcases answer with ⟨full, after⟩ | ⟨tok', ok, after⟩
  · rw [full, after]
    exact Or.inr ⟨u.transport, if_neg nofun⟩
  · rw [ok, after]
    by_cases e : tok' = tok
    · subst e
      exact Or.inl (if_pos rfl)
    · exact Or.inr ⟨_, if_neg fun h => e (BeginResult.ok.inj h)⟩

/-- `PoolCreate` does not touch the token rings. -/
theorem State.poolCreate_token (s : State) (count size : Nat) : (s.poolCreate count size).2.token = s.token := by
  rcases s.poolCreate_cases count size with ⟨e, -⟩ | ⟨-, -, -, ⟨-, e⟩ | ⟨-, e⟩⟩
  · rw [e]
  · rw [e, (s.askBacking_envChange _).token]
  · rw [e]
    exact (s.askBacking_envChange _).token

/-- The submissions of `TR.INIT`: they end as moves of an initialised block that leave the transmit side alone, or with the halt of a
transport that breaks its contract. -/
theorem submitRx_moves {g : Prop} {ts : List Nat} {s : State} (running : s.halted = false) (family : s.cfg.family = .token)
    (inRing : ∀ t ∈ ts, t < QS s.cfg) (nodup : ts.Nodup) (empty : g → ∀ t ∈ ts, slotAt s.token.rxBuffers t = none) :
    ((submitRx ts s).halted = false ∧ Moves g s.opened (submitRx ts s).opened ∧
      (submitRx ts s).token.txBuffers = s.token.txBuffers) ∨
    ((submitRx ts s).halted = true ∧ ∃ v, Moves g s.opened v ∧ Ends v (submitRx ts s)) := by
  induction ts generalizing s with
  | nil => exact Or.inl ⟨running, .refl, rfl⟩
  | cons tok ts ih =>
    cases lease : s.lease with
    | none => exact Or.inl (by rw [submitRx, lease]; exact ⟨running, .refl, rfl⟩)
    | some i =>
      obtain ⟨-, inPool, free⟩ := State.lease_some lease
      obtain ⟨tokRing, restRing⟩ := List.forall_mem_cons.mp inRing
      obtain ⟨fresh, nodup'⟩ := List.nodup_cons.mp nodup
      obtain ⟨u, around, e | ⟨tr, e⟩⟩ := submitRx_cons (tok := tok) (ts := ts) lease
      · have move : TokenMove g u.opened (u.submitted tok i).opened :=
          .submitRx (s := u.opened) (by rw [State.opened, around.pool]; exact inPool)
            (Or.inl ((congrArg Entry.tag (around.entry i)).trans free)) (fun _ => ⟨rfl, rfl⟩)
            (by rw [State.opened, around.cfg]; exact tokRing)
            fun hg => by rw [State.opened, around.token]; exact empty hg tok List.mem_cons_self
        have one : Moves g s.opened (u.submitted tok i).opened :=
          around.opened.moves.trans (move.moves ⟨by rw [State.opened, around.cfg]; exact family, rfl⟩)
        have cfg : (u.submitted tok i).cfg = s.cfg := around.cfg
        have token : (u.submitted tok i).token = { s.token with rxBuffers := s.token.rxBuffers.set tok (some i) } :=
          congrArg (fun r : TokenRing => { r with rxBuffers := r.rxBuffers.set tok (some i) }) around.token
        have rest := ih (s := u.submitted tok i) (around.halted.trans running) (by rw [cfg]; exact family)
          (by rw [cfg]; exact restRing) nodup' fun hg t ht => by
            have away : t ≠ tok := fun h => fresh (h ▸ ht)
            rw [token, slotAt_set_ne away]
            exact empty hg t (List.mem_cons_of_mem _ ht)
        rw [e]
        rcases rest with ⟨runs, moves, tx⟩ | ⟨halts, v, moves, ends⟩
        · exact Or.inl ⟨runs, one.trans moves, tx.trans (by rw [token])⟩
        · exact Or.inr ⟨halts, v, one.trans moves, ends⟩
      · rw [e]
        exact Or.inr ⟨rfl, u.opened, around.opened.moves, .abandoned_opened u (fun _ => ⟨rfl, rfl⟩) i tr _⟩

/-- One buffer of `TR.INIT` to the free-list, as a move of an initialised block. -/
theorem prefillTx_moves {g : Prop} {k : Nat} {s : State} (family : s.cfg.family = .token)
    (empty : g → slotAt s.token.txBuffers k = none) :
    Moves g s.opened (prefillTx s k).opened ∧ (prefillTx s k).cfg = s.cfg ∧
      ((prefillTx s k).token.txBuffers = s.token.txBuffers ∨ (prefillTx s k).token.txBuffers = s.token.txBuffers.set k none) := by
  cases lease : s.lease with
  | none => rw [prefillTx, lease]; exact ⟨.refl, rfl, Or.inl rfl⟩
  | some i =>
    obtain ⟨-, inPool, free⟩ := State.lease_some lease
    have around := s.fillHeader_envChange i
    rw [prefillTx, lease]
    dsimp only
    refine ⟨around.opened.moves.trans ?_, around.cfg, Or.inr ?_⟩
    swap
    · rw [State.setTxBuffer_token, State.setFreeTx_token, State.setEnt_token, around.token]
    have move : TokenMove g (s.fillHeader i).2.opened _ :=
      .fill (s := (s.fillHeader i).2.opened) (i := i) (k := k)
        (f := fun _ => ⟨.swDriver, (s.fillHeader i).1, 0#64, s.pool.esz.setWidth 64, none⟩)
        (by rw [State.opened, around.pool]; exact inPool) ((congrArg Entry.tag (around.entry i)).trans free) (fun _ => ⟨rfl, rfl⟩)
        fun hg => by rw [State.opened, around.token]; exact empty hg
    exact move.moves ⟨by rw [State.opened, around.cfg]; exact family, rfl⟩

theorem prefillTx_loop {g : Prop} (n : Nat) {s : State} (family : s.cfg.family = .token)
    (empty : g → ∀ k, slotAt s.token.txBuffers k = none) : Moves g s.opened ((List.range n).foldl prefillTx s).opened := by
  have loop := foldl_range_induct (n := n) (f := prefillTx) (s := s)
    (P := fun _ t => Moves g s.opened t.opened ∧ t.cfg = s.cfg ∧ (g → ∀ k, slotAt t.token.txBuffers k = none))
    ⟨.refl, rfl, empty⟩ fun k _ t ⟨moves, cfg, clear⟩ => by
      obtain ⟨move, cfg', tx⟩ := prefillTx_moves (k := k) (by rw [cfg]; exact family) fun hg => clear hg k
      refine ⟨moves.trans move, cfg'.trans cfg, fun hg j => ?_⟩
      rcases tx with e | e
      · rw [e]; exact clear hg j
      · rw [e, set_none_of_slotAt_none (clear hg k)]; exact clear hg j
  exact loop.1

theorem trInitBody_run {s : State} (hs : s.halted = false) (absent : s.pool.present = false) (closed : s.inited = false)
    (family : s.cfg.family = .token) : Run s.Inv s (trInitBody s) := by
  have blank : s.Inv → s.token.blank := fun inv => (inv.live hs).tokenIdle (Or.inr closed)
  unfold trInitBody
  dsimp only
  rcases State.poolCreate_moves s.Inv absent closed (2 * QS s.cfg) s.cfg.poolEsz.toNat with ⟨e, around⟩ | ⟨e, moves, pool⟩
  · rw [if_pos e]
    exact around.run (.finish nofun)
  · rw [if_neg (by simp [e])]
    have token : (s.poolCreate (2 * QS s.cfg) s.cfg.poolEsz.toNat).2.token = s.token := s.poolCreate_token _ _
    generalize (s.poolCreate (2 * QS s.cfg) s.cfg.poolEsz.toNat).2 = u at moves pool token
    have poolPresent : u.pool.present = true := by rw [pool]; rfl
    have familyU : u.cfg.family = .token := by rw [moves.cfg]; exact family
    have cleared : Moves s.Inv u.opened (u.setFreeTx []).opened :=
      TokenMove.moves (.restart (s := u.opened) fun inv => by rw [State.opened, token]; exact (blank inv).1) ⟨familyU, rfl⟩
    have fullRx (v : State) (cfg : v.cfg = u.opened.cfg) : v.fullRx := fun h => by
      rw [cfg, State.opened, familyU] at h
      cases h
    rcases submitRx_moves (g := s.Inv) (ts := List.range (QS s.cfg)) (s := u.setFreeTx []) (moves.halted.trans hs) familyU
      (by rw [State.setFreeTx_cfg, moves.cfg]; exact fun t ht => List.mem_range.mp ht) List.nodup_range
      (fun inv t _ => by
        rw [State.setFreeTx_token, token]
        exact (forall_mem_none_iff _).mp (blank inv).2.1 t) with ⟨runs, submits, tx⟩ | ⟨halts, v, submits, ends⟩
    · rw [if_neg (by simp [runs])]
      have rings : Moves s.Inv u.opened _ := (cleared.trans submits).trans (prefillTx_loop (QS s.cfg)
        ((congrArg Params.family (Moves.cfg submits)).trans familyU)
        fun inv k => by
          rw [tx, State.setFreeTx_token, token]
          exact (forall_mem_none_iff _).mp (blank inv).2.2 k)
      exact .init moves poolPresent rings (fun _ => fullRx _ (Moves.cfg rings)) (.finish nofun)
    · rw [if_pos halts]
      have rings : Moves s.Inv u.opened v := cleared.trans submits
      exact .init moves poolPresent rings (fun _ => fullRx _ (Moves.cfg rings)) ends

theorem execTrInit_run {s : State} (hs : s.halted = false) : Runs s.Inv s (execTrInit s) := by
  refine Run.runs ((stops_initCheck hs _).run_getD fun h => ?_)
  obtain ⟨-, family, closed, absent⟩ := (initCheck_none _ s).mp h
  exact trInitBody_run hs absent closed family

/-! ## Receive -/

/-- A consumed receive completion, the slot already emptied (R233, R289): the transport's turn before it leaves the block as it is. -/
theorem State.receiveComplete_setRxBuffer {s : State} {tok i : Nat} {c : (Word × Word) × State}
    (h : (s.setRxBuffer tok none).receiveComplete tok i = some c) : ∃ v u rest, EnvChange s v ∧ v.transport.rxUsed = u :: rest ∧
      u.tok = tok ∧ u.entry = i ∧ c.2 = { v.setRxBuffer tok none with transport := v.transport.consumeRx } := by
  obtain ⟨u, rest, used, sameToken, sameEntry, -, after⟩ := State.receiveComplete_some h
  obtain ⟨v, around, e⟩ := EnvChange.exists_of_setRxBuffer (s.setRxBuffer tok none).envTurn_envChange
  rw [e] at used after
  have used' : v.transport.rxUsed = u :: rest := used
  obtain rfl : v.transport.rxUsed.tail = rest := by rw [used']; rfl
  exact ⟨v, u, _, around, used', sameToken, sameEntry, after⟩

/-- A consumed transmit completion, the slot already emptied (R237, R292). -/
theorem State.transmitComplete_setTxBuffer {s t : State} {tok i : Nat} (h : (s.setTxBuffer tok none).transmitComplete tok i = some t) :
    ∃ v u rest, EnvChange s v ∧ v.transport.txUsed = u :: rest ∧ u.tok = tok ∧ u.entry = i ∧
      t = { v.setTxBuffer tok none with transport := v.transport.consumeTx } := by
  obtain ⟨u, rest, used, sameToken, sameEntry, after⟩ := State.transmitComplete_some h
  obtain ⟨v, around, e⟩ := EnvChange.exists_of_setTxBuffer (s.setTxBuffer tok none).envTurn_envChange
  rw [e] at used after
  have used' : v.transport.txUsed = u :: rest := used
  obtain rfl : v.transport.txUsed.tail = rest := by rw [used']; rfl
  exact ⟨v, u, _, around, used', sameToken, sameEntry, after⟩

theorem trRxBody_run {g : Prop} {s : State} (h : s.tokenOpen) : Runs g s (trRxBody s) := by
  have turn : EnvChange s s.envTurn := s.envTurn_envChange
  unfold trRxBody
  dsimp only
  split
  · exact Run.runs (turn.run (.finish nofun))
  next tok polled =>
  split
  · exact Run.runs (turn.run .raise)
  split
  · exact Run.runs (turn.run .raise)
  next i held =>
  split
  · exact runs_fault _ _ _
  next c completed =>
  obtain ⟨v, u, rest, around, used, sameToken, sameEntry, after⟩ := State.receiveComplete_setRxBuffer completed
  have both : EnvChange s v := turn.trans around
  have move : TokenMove g v { (v.setRxBuffer tok none).lendEnt i c.1.1 c.1.2 with transport := v.transport.consumeRx } :=
    .completeRx (by rw [around.token]; exact held) used sameToken sameEntry
  rw [after]
  exact Run.runs (.plain (both.moves.trans (move.moves (both.tokenOpen h))) .ok3)

theorem trRxrecycleBody_run {g : Prop} {s : State} (h : s.tokenOpen) : Run g s (trRxrecycleBody s) := by
  unfold trRxrecycleBody
  split
  · exact .of_ends .raise
  next i accepted =>
  obtain ⟨-, -, lent, -⟩ := State.reclaim_some accepted
  have hands : HandsOver fun e => { e with hdrLen := 0#64, pktLen := 0#64, wire := none, tag := .hw } := fun _ => ⟨rfl, rfl⟩
  obtain ⟨u, around, ⟨full, after⟩ | ⟨tok, ok, after⟩⟩ :=
    s.receiveBegin_setEnt i (fun e => { e with hdrLen := 0#64, pktLen := 0#64, wire := none, tag := .hw })
  · simp only [full, after]
    exact around.run (.abandoned u hands i u.transport _)
  · simp only [ok, after]
    split
    · exact around.run (.abandoned u hands i _ _)
    next inRing =>
    split
    · exact around.run (.abandoned u hands i _ _)
    next empty =>
    have tag : (u.entry i).tag = .swStack := (congrArg Entry.tag (around.entry i)).trans lent
    have move : TokenMove g u _ := .submitRx (State.lt_of_tag_eq tag nofun) (Or.inr tag) hands
      (by rw [around.cfg]; exact Nat.lt_of_not_le inRing) fun _ => by simpa using empty
    exact .plain (around.moves.trans (move.moves (around.tokenOpen h))) (.finish nofun)

/-! ## Transmit -/

theorem trTxBody_run {g : Prop} {s : State} (h : s.tokenOpen) : Run g s (trTxBody s) := by
  unfold trTxBody
  split
  · exact .of_ends .raise
  next i accepted =>
  obtain ⟨-, -, lent, -⟩ := State.reclaim_some accepted
  have turn : EnvChange s s.canSend.2 := s.envTurn_envChange
  dsimp only
  split
  · exact turn.run (.finish nofun)
  have hands : HandsOver fun e => { e with wire := none, tag := .hw } := fun _ => ⟨rfl, rfl⟩
  obtain ⟨u, after', ⟨full, after⟩ | ⟨tok, ok, after⟩⟩ := s.canSend.2.transmitBegin_setEnt i
    ((s.entry i).hdrLen.toNat + (s.entry i).pktLen.toNat) (fun e => { e with wire := none, tag := .hw })
  · have around := turn.trans after'
    simp only [full, after]
    exact around.run (.abandoned u hands i u.transport _)
  · have around := turn.trans after'
    simp only [ok, after]
    split
    · exact around.run (.abandoned u hands i _ _)
    next inRing =>
    split
    · exact around.run (.abandoned u hands i _ _)
    next empty =>
    have tag : (u.entry i).tag = .swStack := (congrArg Entry.tag (around.entry i)).trans lent
    have move : TokenMove g u _ := .submitTx (nbytes := (s.entry i).hdrLen.toNat + (s.entry i).pktLen.toNat) tag hands (by rw [around.cfg]; exact Nat.lt_of_not_le inRing) (by simpa using empty)
    exact .plain (around.moves.trans (move.moves (around.tokenOpen h))) (.finish nofun)

/-- The drain loop of `TR.TXRECYCLE`: each completion consumed is a move (R237). -/
theorem txDrain_run {g : Prop} {fuel : Nat} {s : State} (h : s.tokenOpen) : Runs g s (txDrain fuel s) := by
  induction fuel generalizing s with
  | zero => exact Run.runs (.of_ends (.finish nofun))
  | succ fuel ih =>
    have turn : EnvChange s s.pollTransmit.2 := s.envTurn_envChange
    unfold txDrain
    dsimp only
    split
    · exact Run.runs (turn.run (.finish nofun))
    next tok polled =>
    split
    · exact Run.runs (turn.run .raise)
    split
    · exact Run.runs (turn.run .raise)
    next i held =>
    split
    · exact runs_fault _ _ _
    next t completed =>
    obtain ⟨v, u, rest, around, used, sameToken, sameEntry, after⟩ := State.transmitComplete_setTxBuffer completed
    have both : EnvChange s v := turn.trans around
    have move : TokenMove g v _ := .completeTx (f := fun e => { e with pktLen := 0#64, tag := .swDriver })
      (by rw [around.token]; exact held) used sameToken sameEntry fun _ => ⟨rfl, rfl⟩
    have one : Moves g s _ := both.moves.trans (move.moves (both.tokenOpen h))
    rw [after]
    exact .of_moves one (ih (one.tokenOpen h))

theorem trTxallocBody_run {g : Prop} {s : State} (h : s.tokenOpen) : Run g s (trTxallocBody s) := by
  unfold trTxallocBody
  split
  · exact .of_ends (.finish nofun)
  next i top =>
  split
  · exact .of_ends (.finish nofun)
  · have move : TokenMove g s ((s.setFreeTx s.token.freeTx.dropLast).lendEnt i (s.entry i).hdrLen s.a0) := .alloc top
    exact .plain (move.moves h) .ok3

section
variable {g : Prop} {s : State} (hs : s.halted = false)
include hs

theorem execTrCanrx_run : Runs g s (execTrCanrx s) :=
  Run.runs ((stops_trCheck hs).run_getD fun _ => s.envTurn_envChange.run .ok1)

theorem execTrRx_run : Runs g s (execTrRx s) := by
  unfold execTrRx
  split
  · next t stopped => exact Run.runs (.of_ends (stops_trCheck hs t stopped).1)
  · next passed => exact trRxBody_run (State.tokenOpen_of_check passed)

theorem execTrRxrecycle_run : Runs g s (execTrRxrecycle s) :=
  Run.runs ((stops_trCheck hs).run_getD fun h => trRxrecycleBody_run (State.tokenOpen_of_check h))

theorem execTrCantx_run : Runs g s (execTrCantx s) :=
  Run.runs ((stops_trCheck hs).run_getD fun _ => s.envTurn_envChange.run .ok1)

theorem execTrTx_run : Runs g s (execTrTx s) :=
  Run.runs ((stops_trCheck hs).run_getD fun h => trTxBody_run (State.tokenOpen_of_check h))

theorem execTrTxrecycle_run : Runs g s (execTrTxrecycle s) := by
  unfold execTrTxrecycle
  split
  · next t stopped => exact Run.runs (.of_ends (stops_trCheck hs t stopped).1)
  · next passed => exact txDrain_run (State.tokenOpen_of_check passed)

theorem execTrTxalloc_run : Runs g s (execTrTxalloc s) :=
  Run.runs ((stops_trCheck hs).run_getD fun h => trTxallocBody_run (State.tokenOpen_of_check h))

/-! ## The contract (R260) -/

theorem byFamily_run {classic token : State → Result} (hc : Runs g s (classic s)) (ht : Runs g s (token s)) :
    Runs g s (byFamily classic token s) := by
  unfold byFamily
  rw [haltCheck_running hs]
  dsimp only
  split
  · exact hc
  · exact ht

theorem byFamilyQueued_run (q : Nat) {classic token : State → Result} (hc : Runs g s (classic s)) (ht : Runs g s (token s)) :
    Runs g s (byFamilyQueued q classic token s) := by
  refine byFamily_run hs hc ?_
  split
  · next t stopped => exact Run.runs (.of_ends (((stops_initedCheck s).orElse (stops_queueCheck q s)) t stopped).1)
  · exact ht

theorem execDevInfo_run : Runs g s (execDevInfo s) := by
  refine Run.runs ((stops_haltCheck hs).run_getD fun _ => ?_)
  split
  · exact .of_ends .ok1
  · exact .of_ends (.finish nofun)

end

/-! ## Every operation -/

/-- Every operation but `SYS.RESET` of a block that is not halted is a run. -/
theorem exec_run {i : Instr} {s : State} (hs : s.halted = false) (hi : i ≠ .sysReset) : Runs s.Inv s (exec i s) := by
  cases i with
  | rxdInit q => exact codec_run hs q (s.rxInit_envChange _) (.finish nofun)
  | rxdSetaddr q => exact codec_run hs q (s.rxSetAddr_envChange _ _) (.finish nofun)
  | rxdRststat q => exact codec_run hs q (s.rxRstStat_envChange _) (.finish nofun)
  | rxdDd q => exact rxReadW1_run hs q _
  | rxdEop q => exact rxReadW1_run hs q _
  | rxdLen q => exact rxReadW1_run hs q _
  | rxdRsstype q => exact rxReadW0_run hs q _
  | rxdPkttype q => exact rxReadW0_run hs q _
  | rxdHdrlen q => exact rxReadW0_run hs q _
  | rxdRsshash q => exact rxReadW0_run hs q _
  | rxdXstatus q => exact rxReadW1_run hs q _
  | rxdXerror q => exact rxReadW1_run hs q _
  | rxdVlan q => exact rxReadW1_run hs q _
  | txdInit q => exact codec_run hs q (s.txInit_envChange _) (.finish nofun)
  | txdSend q => exact codec_run hs q (s.txSend_envChange _ _ _) (.finish nofun)
  | txdPolldd q => exact txReadField_run hs q _ _ _
  | txdWaitdd q => exact execTxdWaitdd_run hs q
  | txdGetaddr q => exact txReadField_run hs q _ _ _
  | txdGetlen q => exact txReadField_run hs q _ _ _
  | txdGetpaylen q => exact txReadField_run hs q _ _ _
  | poolAllocate => exact execPoolAllocate_run hs
  | poolAlloc => exact execPoolAlloc_run hs
  | poolFree => exact execPoolFree_run hs
  | poolStat => exact execPoolStat_run hs
  | crInit => exact execCrInit_run hs
  | crCanrx q => exact execCrCanrx_run hs q
  | crRx q => exact execCrRx_run hs q
  | crRxrecycle => exact execCrRxrecycle_run hs
  | crCantx q => exact execCrCantx_run hs q
  | crTx q => exact execCrTx_run hs q
  | crTxrecycle q => exact execCrTxrecycle_run hs q
  | crTxalloc => exact execCrTxalloc_run hs
  | trInit => exact execTrInit_run hs
  | trCanrx => exact execTrCanrx_run hs
  | trRx => exact execTrRx_run hs
  | trRxrecycle => exact execTrRxrecycle_run hs
  | trCantx => exact execTrCantx_run hs
  | trTx => exact execTrTx_run hs
  | trTxrecycle => exact execTrTxrecycle_run hs
  | trTxalloc => exact execTrTxalloc_run hs
  | devInit => exact byFamily_run hs (execCrInit_run hs) (execTrInit_run hs)
  | devCanrx q => exact byFamilyQueued_run hs q (execCrCanrx_run hs q) (execTrCanrx_run hs)
  | devRx q => exact byFamilyQueued_run hs q (execCrRx_run hs q) (execTrRx_run hs)
  | devRxrecycle => exact byFamily_run hs (execCrRxrecycle_run hs) (execTrRxrecycle_run hs)
  | devCantx q => exact byFamilyQueued_run hs q (execCrCantx_run hs q) (execTrCantx_run hs)
  | devTx q => exact byFamilyQueued_run hs q (execCrTx_run hs q) (execTrTx_run hs)
  | devTxrecycle q => exact byFamilyQueued_run hs q (execCrTxrecycle_run hs q) (execTrTxrecycle_run hs)
  | devTxalloc => exact byFamily_run hs (execCrTxalloc_run hs) (execTrTxalloc_run hs)
  | devInfo => exact execDevInfo_run hs
  | sysReset => exact absurd rfl hi

section
variable {s : State} (hs : s.halted = true)
include hs

theorem haltCheck_halted : haltCheck s = some (s.finish .badState) := if_pos hs

theorem codecCheck_halted (q : Nat) : codecCheck q s = some (s.finish .badState) := by rw [codecCheck, haltCheck_halted hs]; rfl

theorem crCheck_halted : crCheck s = some (s.finish .badState) := by rw [crCheck, haltCheck_halted hs]; rfl

theorem crQueueCheck_halted (q : Nat) : crQueueCheck q s = some (s.finish .badState) := by
  rw [crQueueCheck, crCheck_halted hs]; rfl

theorem trCheck_halted : trCheck s = some (s.finish .badState) := by rw [trCheck, haltCheck_halted hs]; rfl

theorem initCheck_halted (f : Family) : initCheck f s = some (s.finish .badState) := by
  rw [initCheck, haltCheck_halted hs]; rfl

theorem byFamily_halted (classic token : State → Result) : byFamily classic token s = .next (s.finish .badState) := by
  rw [byFamily, haltCheck_halted hs]

theorem byFamilyQueued_halted (q : Nat) (classic token : State → Result) :
    byFamilyQueued q classic token s = .next (s.finish .badState) := byFamily_halted hs _ _

/-- Every operation but `SYS.RESET` of a halted block answers Bad-state and changes nothing else (R309). -/
theorem exec_halted {i : Instr} (hi : i ≠ .sysReset) : exec i s = .next (s.finish .badState) := by
  cases i with
  | sysReset => exact absurd rfl hi
  | rxdInit q | rxdSetaddr q | rxdRststat q | txdInit q | txdSend q | txdWaitdd q =>
    simp only [exec, execRxdInit, execRxdSetaddr, execRxdRststat, execTxdInit, execTxdSend, execTxdWaitdd, codecCheck_halted hs,
      Option.getD_some]
  | rxdDd q | rxdEop q | rxdLen q | rxdRsstype q | rxdPkttype q | rxdHdrlen q | rxdRsshash q | rxdXstatus q | rxdXerror q | rxdVlan q =>
    simp only [exec, execRxdDd, execRxdEop, execRxdLen, execRxdRsstype, execRxdPkttype, execRxdHdrlen, execRxdRsshash, execRxdXstatus,
      execRxdXerror, execRxdVlan, rxReadW0, rxReadW1, codecCheck_halted hs, Option.getD_some]
  | txdPolldd q | txdGetaddr q | txdGetlen q | txdGetpaylen q =>
    simp only [exec, execTxdPolldd, execTxdGetaddr, execTxdGetlen, execTxdGetpaylen, txReadField, codecCheck_halted hs,
      Option.getD_some]
  | poolAllocate | poolAlloc | poolFree | poolStat | devInfo =>
    simp only [exec, execPoolAllocate, execPoolAlloc, execPoolFree, execPoolStat, execDevInfo, haltCheck_halted hs, Option.getD_some]
  | crInit | trInit => simp only [exec, execCrInit, execTrInit, initCheck_halted hs, Option.getD_some]
  | crCanrx q | crRx q | crCantx q | crTx q | crTxrecycle q =>
    simp only [exec, execCrCanrx, execCrRx, execCrCantx, execCrTx, execCrTxrecycle, crQueueCheck_halted hs, Option.getD_some]
  | crRxrecycle | crTxalloc => simp only [exec, execCrRxrecycle, execCrTxalloc, crCheck_halted hs, Option.getD_some]
  | trCanrx | trRx | trRxrecycle | trCantx | trTx | trTxrecycle | trTxalloc =>
    simp only [exec, execTrCanrx, execTrRx, execTrRxrecycle, execTrCantx, execTrTx, execTrTxrecycle, execTrTxalloc, trCheck_halted hs,
      Option.getD_some]
  | devInit | devRxrecycle | devTxalloc => exact byFamily_halted hs _ _
  | devCanrx q | devRx q | devCantx q | devTx q | devTxrecycle q => exact byFamilyQueued_halted hs _ _ _

end

end Sys2Proof.Machine
end

section
/-! What one step can do, and the statements about the state that every step keeps (spec/10_state.md). -/

namespace Sys2Proof.Machine

/-! ## Power-on (R50) -/

theorem powerOn_sizesOk {p : Params} (h : 0 < QS p) (m : Memory) : (State.powerOn p m).sizesOk := by
  refine ⟨List.length_replicate, fun r hr => ?_, List.length_replicate, fun d hd => ?_, List.length_replicate, List.length_replicate,
    rfl, fun _ => rfl, fun n => absurd rfl n, nofun⟩
  · rw [List.eq_of_mem_replicate hr]
    exact ⟨List.length_replicate, List.length_replicate, h, h, h, Nat.zero_le _⟩
  · rw [List.eq_of_mem_replicate hd]
    exact h

/-- A pool of no bytes has its place where any pool has. -/
theorem poolRoom_zero {p : Params} {n : Nat} (room : poolRoom p n = true) : poolRoom p 0 = true := by
  obtain ⟨physical, virtual, -⟩ := (poolRoom_iff p n).mp room
  rw [poolRoom_iff]
  exact ⟨by omega, by omega, fun r _ => Or.inr (Or.inr (Or.inl rfl))⟩

theorem powerOn_queue_blank {p : Params} {m : Memory} : ∀ r ∈ (State.powerOn p m).queues, r.blank := by
  intro r hr
  rw [List.eq_of_mem_replicate hr]
  exact ⟨rfl, fun o ho => List.eq_of_mem_replicate ho, fun o ho => List.eq_of_mem_replicate ho⟩

theorem powerOn_token_blank (p : Params) (m : Memory) : (State.powerOn p m).token.blank :=
  ⟨rfl, fun _ ho => List.eq_of_mem_replicate ho, fun _ ho => List.eq_of_mem_replicate ho⟩

theorem powerOn_codesOk (p : Params) (m : Memory) : (State.powerOn p m).codesOk :=
  State.codesOk_of_running rfl (show 0#8 ≤ 5#8 by decide) rfl

theorem powerOn_live {p : Params} {m : Memory} (h : validParams p = true) (hm : m.wf = true) : (State.powerOn p m).Live where
  valid := h
  memory := hm
  sizes := powerOn_sizesOk (validParams_QS_pos h) m
  placed := poolRoom_zero (validParams_room h)
  wires := nofun
  owned j := by
    have installed : (State.powerOn p m).installed = [] := by
      obtain ⟨-, rx, tx⟩ := powerOn_token_blank p m
      simp only [State.installed, List.append_eq_nil_iff, List.flatMap_eq_nil_iff, present_eq_nil rx, present_eq_nil tx, and_true]
      exact fun r hr => ⟨present_eq_nil (powerOn_queue_blank r hr).2.1, present_eq_nil (powerOn_queue_blank r hr).2.2⟩
    have held : (State.powerOn p m).held = [] := by
      simp only [State.held, List.append_eq_nil_iff, List.flatMap_eq_nil_iff]
      exact ⟨fun r hr => (powerOn_queue_blank r hr).1, rfl⟩
    rw [installed, held, State.entry_of_le (Nat.zero_le j)]
    exact ⟨rfl, rfl⟩
  windows r hr := by
    have blank := (powerOn_queue_blank r hr).2.2
    rw [List.eq_of_mem_replicate hr] at blank ⊢
    exact Queue.txWindowOk_empty rfl (validParams_QS_pos h) blank
  queuesIdle _ := powerOn_queue_blank
  tokenIdle _ := powerOn_token_blank p m

theorem powerOn_inv {p : Params} {m : Memory} (h : validParams p = true) (hm : m.wf = true) : (State.powerOn p m).Inv :=
  (powerOn_live h hm).inv nofun (powerOn_codesOk p m)

theorem powerOn_tokensOk (p : Params) (m : Memory) : (State.powerOn p m).tokensOk := by
  obtain ⟨-, rx, tx⟩ := powerOn_token_blank p m
  have empty : ∀ l : List (Option Nat), (∀ o ∈ l, o = none) → Agree l [] := fun l none =>
    ⟨fun t i => by simp [(forall_mem_none_iff l).mp none t], List.nodup_nil⟩
  exact (State.tokensOk_iff _).mpr fun _ => ⟨empty _ rx, empty _ tx⟩

/-! ## What one step can do -/

/-- Halt and codes of `t` are those of `s`. -/
def State.sameCodes (s t : State) : Prop := t.st = s.st ∧ t.halted = s.halted ∧ t.hcause = s.hcause

theorem State.sameCodes.codesOk {s t : State} (h : s.sameCodes t) (k : s.codesOk) : t.codesOk := by
  obtain ⟨st, halted, cause⟩ := h
  unfold State.codesOk
  rw [st, halted, cause]
  exact k

/-- What a step leaves: a state like the one before, a halted block's answer, the outcome of an operation, or a state like power-on. -/
inductive Stepped (s t : State) : Prop
  /-- the environment and the host act; no operation executes -/
  | passes (alike : Alike s t) (codes : s.sameCodes t)
  /-- a halted block answers Bad-state (R309) -/
  | refuses (halted : s.halted = true) (alike : Alike s t) (st : t.st = 4#8) (latch : t.halted = s.halted) (cause : t.hcause = s.hcause)
  /-- an operation of a block that is not halted -/
  | runs {u : State} (alike : Alike s u) (codes : s.sameCodes u) (running : u.halted = false) (run : Run u.Inv u t)
  /-- a reset (R340, R342) -/
  | resets {m : Memory} (memory : s.mem.wf = true → m.wf = true) (alike : Alike (State.powerOn s.cfg m) t)
    (codes : (State.powerOn s.cfg m).sameCodes t)

/-- The registers, the phase and the host's list of `u` may differ from those of `s`, and nothing else. -/
theorem exec_stepped {i : Instr} {s t u : State} (alike : Alike s u) (codes : s.sameCodes u) (h : exec i u = .next t) :
    Stepped s t := by
  by_cases hi : i = .sysReset
  · subst hi
    obtain rfl : State.ok { u.resetBlock with cmd := u.cmd } = t := Host.Outcome.next.inj h
    have reset : Alike (State.powerOn u.cfg u.mem) (State.ok { u.resetBlock with cmd := u.cmd }) :=
      (EnvChange.of_env (t := { State.powerOn u.cfg u.mem with env := u.env }) rfl).alike.trans (.of_registers rfl id)
    rw [alike.cfg] at reset
    exact .resets alike.evolves.memory reset ⟨rfl, rfl, rfl⟩
  · cases hu : u.halted with
    | false => exact .runs alike codes hu (exec_run hu hi t h)
    | true =>
      obtain rfl : u.finish .badState = t := Host.Outcome.next.inj ((exec_halted hu hi).symm.trans h)
      obtain ⟨-, halted, cause⟩ := codes
      exact .refuses (halted ▸ hu) (alike.trans (.of_registers rfl id)) rfl halted cause

theorem reservedCommand_stepped {s u : State} (alike : Alike s u) (codes : s.sameCodes u) : Stepped s (reservedCommand u) := by
  cases hu : u.halted with
  | false => exact .runs alike codes hu ((stops_haltCheck hu).run_getD fun _ => .of_ends (.finish nofun))
  | true =>
    obtain ⟨-, halted, cause⟩ := codes
    rw [reservedCommand, haltCheck_halted hu]
    exact .refuses (halted ▸ hu) (alike.trans (.of_registers rfl id)) rfl halted cause

theorem runCommand_stepped {s t u : State} (alike : Alike s u) (codes : s.sameCodes u) (h : runCommand u = .next t) :
    Stepped s t := by
  have idle : Alike s { u with phase := .idle } := alike.trans (.of_registers rfl id)
  unfold runCommand at h
  split at h
  · exact exec_stepped idle codes h
  · obtain rfl : reservedCommand { u with phase := .idle } = t := Host.Outcome.next.inj h
    exact reservedCommand_stepped idle codes

theorem resetBlock_stepped {s u : State} (alike : Alike s u) : Stepped s u.resetBlock := by
  have reset : Alike (State.powerOn u.cfg u.mem) u.resetBlock :=
    (EnvChange.of_env (t := { State.powerOn u.cfg u.mem with env := u.env }) rfl).alike.trans (.of_registers rfl id)
  rw [alike.cfg] at reset
  exact .resets alike.evolves.memory reset ⟨rfl, rfl, rfl⟩

theorem hostAct_stepped {s t u : State} {act : HostAction} (alike : Alike s u) (codes : s.sameCodes u) (h : hostAct u act = .next t) :
    Stepped s t := by
  have registers : Alike u t → u.sameCodes t → Stepped s t := fun a c =>
    .passes (alike.trans a) ⟨c.1.trans codes.1, c.2.1.trans codes.2.1, c.2.2.trans codes.2.2⟩
  cases act with
  | writeA0 | writeA1 | writeA2 | writeCmd | pause =>
    cases h
    exact registers (.of_registers rfl id) ⟨rfl, rfl, rfl⟩
  | storeByte p b =>
    unfold hostAct at h
    dsimp only at h
    split at h <;> cases h
    exact registers (EnvChange.alike (.of_access rfl (fun m => Memory.wf_put m (BitVec.isLt _) b) rfl)) ⟨rfl, rfl, rfl⟩
  | loadByte p =>
    unfold hostAct at h
    dsimp only at h
    split at h <;> cases h
    exact .passes alike codes
  | extReset =>
    cases h
    exact resetBlock_stepped alike

/-- What one step can do. -/
theorem step_stepped {s t : State} (h : step s = .next t) : validParams s.cfg = true ∧ Stepped s t := by
  have turn : Alike s s.envTurn := s.envTurn_envChange.alike
  have turnCodes : s.sameCodes s.envTurn := ⟨s.envTurn_st, s.envTurn_halted, s.envTurn_hcause⟩
  have same : Alike s s := .of_registers rfl id
  unfold step stepOf at h
  split at h
  · cases h
  next valid =>
  refine ⟨by simpa using valid, ?_⟩
  split at h
  · unfold idleStep at h
    split at h
    · cases h
      exact .passes turn turnCodes
    · next rest _ =>
      exact hostAct_stepped (u := { s.envTurn with host := rest }) (turn.trans (.of_registers rfl id)) turnCodes h
  · exact runCommand_stepped same ⟨rfl, rfl, rfl⟩ h
  · unfold spinStep at h
    split at h
    · cases h
      exact resetBlock_stepped (turn.trans (.of_registers rfl id))
    · next rest _ => exact runCommand_stepped (u := { s with host := rest }) (.of_registers rfl id) ⟨rfl, rfl, rfl⟩ h
    · exact runCommand_stepped same ⟨rfl, rfl, rfl⟩ h

/-- A halted block's answer leaves the codes as they were. -/
theorem State.codesOk_refused {s t : State} (halted : s.halted = true) (st : t.st = 4#8) (latch : t.halted = s.halted)
    (cause : t.hcause = s.hcause) (k : s.codesOk) : t.codesOk := by
  obtain ⟨-, -, -, busy⟩ := id k
  exact State.sameCodes.codesOk ⟨st.trans (busy halted).symm, latch, cause⟩ k

theorem Stepped.codesOk {s t : State} (h : Stepped s t) (k : s.codesOk) : t.codesOk := by
  cases h with
  | passes alike codes => exact codes.codesOk k
  | refuses halted alike st latch cause => exact State.codesOk_refused halted st latch cause k
  | runs alike codes running run => exact run.codesOk running (codes.codesOk k)
  | resets memory alike codes => exact codes.codesOk (powerOn_codesOk _ _)

theorem Stepped.sizesOk {s t : State} (h : Stepped s t) (hq : 0 < QS s.cfg) (k : s.sizesOk) : t.sizesOk := by
  cases h with
  | passes alike => exact alike.sizesOk hq k
  | refuses _ alike => exact alike.sizesOk hq k
  | runs alike _ _ run => exact run.sizesOk (alike.cfg ▸ hq) (alike.sizesOk hq k)
  | resets _ alike => exact alike.sizesOk hq (powerOn_sizesOk hq _)

theorem Stepped.inv {s t : State} (h : Stepped s t) (k : s.Inv) : t.Inv := by
  have codes := h.codesOk k.codes
  cases h with
  | passes alike => exact k.alike alike codes
  | refuses _ alike => exact k.alike alike codes
  | runs alike same running run => exact run.inv running (k.alike alike (same.codesOk k.codes))
  | resets memory alike => exact (powerOn_inv k.valid (memory k.memory)).alike alike codes

theorem Stepped.tokensOk {s t : State} (h : Stepped s t) (k : s.Inv) (tokens : s.tokensOk) : t.tokensOk := by
  cases h with
  | passes alike => exact alike.tokensOk tokens
  | refuses _ alike => exact alike.tokensOk tokens
  | runs alike same running run =>
    exact run.tokensOk running (k.alike alike (same.codesOk k.codes)) (alike.tokensOk tokens)
  | resets _ alike => exact alike.tokensOk (powerOn_tokensOk _ _)

/-! ## The statements -/

/-- Settles O56: the codes by the end of each operation, the sizes move by move. -/
theorem stepKeepsCodesAndSizes : Obligations.StepKeepsCodesAndSizes := by
  intro s t codes sizes h
  obtain ⟨valid, stepped⟩ := step_stepped h
  exact ⟨stepped.codesOk codes, stepped.sizesOk (validParams_QS_pos valid) sizes⟩

/-- Settles O57: every operation is a run of moves of buffers between places, and each move keeps the invariant of a running block. -/
theorem stepKeepsInvariant : Obligations.StepKeepsInvariant := fun _ _ inv h => (step_stepped h).2.inv inv

/-- Settles O58: a move changes a token's slot and the transport's list together, and a transport that breaks its contract halts the
block. -/
theorem stepKeepsTokenAgreement : Obligations.StepKeepsTokenAgreement := fun _ _ inv tokens h => (step_stepped h).2.tokensOk inv tokens

/-- Settles O44: moves write no register, and an end writes results only with OK. -/
theorem resultsOnlyWithOk : Obligations.ResultsOnlyWithOk := by
  intro i s t hi h
  have registers : s.sameOperands t ∧ (t.st ≠ 0#8 → s.sameResults t) := by
    cases hs : s.halted with
    | false => exact (exec_run hs hi t h).registers
    | true =>
      obtain rfl : s.finish .badState = t := Host.Outcome.next.inj ((exec_halted hs hi).symm.trans h)
      exact ⟨⟨rfl, rfl, rfl, rfl, rfl, rfl⟩, fun _ => ⟨rfl, rfl, rfl⟩⟩
  obtain ⟨⟨a0, a1, a2, cmd, cfg, host⟩, results⟩ := registers
  exact ⟨a0, a1, a2, cmd, cfg, host, results⟩

/-- Settles O60. -/
theorem powerOnMeetsInvariants : Obligations.PowerOnMeetsInvariants := by
  have every : ∀ (p : Params) (m : Memory), validParams p = true → m.wf = true →
      (State.powerOn p m).Inv ∧ (State.powerOn p m).tokensOk := fun p m valid wf => ⟨powerOn_inv valid wf, powerOn_tokensOk p m⟩
  exact ⟨every, every Config.instanceC [] (by decide) rfl⟩

/-- A spinning wait that the external reset does not end runs its command again, a `pause` passed. -/
theorem spinStep_of_no_reset {s : State} (h : s.host.head? ≠ some .extReset) : spinStep s = runCommand s.passPause := by
  rcases host : s.host with _ | ⟨act, rest⟩
  · simp only [spinStep, State.passPause, host]
  · cases act with
    | extReset => exact absurd (by rw [host]; rfl) h
    | writeA0 | writeA1 | writeA2 | writeCmd | storeByte | loadByte | pause => simp only [spinStep, State.passPause, host]

theorem State.passPause_cmd (s : State) : s.passPause.cmd = s.cmd := by
  unfold State.passPause; split <;> rfl

/-- Settles O5: `step` decodes `CMD` in both phases, and the host's list says whether a `pause` is passed first. -/
theorem stepRunsDecodedOperation : Obligations.StepRunsDecodedOperation := by
  intro s i valid decoded
  have command : ∀ u : State, u.cmd = s.cmd → runCommand u = exec i { u with phase := .idle } := fun u hu => by
    rw [runCommand, hu, decoded]
  have built : ¬ validParams s.cfg = false := by rw [valid]; exact nofun
  refine ⟨fun issued => ?_, fun running noReset => ?_⟩
  · rw [step, stepOf, if_neg built, issued]
    exact command s rfl
  · rw [step, stepOf, if_neg built, running]
    exact (spinStep_of_no_reset noReset).trans (command _ s.passPause_cmd)

/-- Every slot of the ring is occupied exactly when the one at `tx_index` is. -/
theorem Queue.txBuf_full_iff {p : Params} {r : Queue} (hq : 0 < QS p) (h : r.txWindowOk p) (inRange : r.txClean.toNat < QS p) :
    (∀ j < QS p, slotAt r.txBuf j ≠ none) ↔ slotAt r.txBuf r.txIndex.toNat ≠ none := by
  obtain ⟨k, hk, index, window⟩ := h
  have free := Queue.txIndex_free_iff hq hk index window
  refine ⟨fun full => full _ (by rw [index]; exact Nat.mod_lt _ hq), fun occupied j hj => ?_⟩
  have lap : k = QS p := by
    rw [ne_eq, free] at occupied
    omega
  have reached : (r.txClean.toNat + (j + (QS p - r.txClean.toNat)) % QS p) % QS p = j := by
    rw [Nat.add_mod_mod, show r.txClean.toNat + (j + (QS p - r.txClean.toNat)) = j + QS p by omega, Nat.add_mod_right,
      Nat.mod_eq_of_lt hj]
  have := (window ((j + (QS p - r.txClean.toNat)) % QS p) (Nat.mod_lt _ hq)).mpr (by rw [lap]; exact Nat.mod_lt _ hq)
  rwa [reached] at this

/-- Settles O24: the slot at `tx_index` is free exactly when the window of occupied slots has not come round the whole ring. -/
theorem noTxRoomExactlyWhenFull : Obligations.NoTxRoomExactlyWhenFull := by
  intro q s inv ⟨running, family, isOpen, inRange⟩
  have mem : s.queue q ∈ s.queues := State.queue_mem (inv.sizes.1 ▸ inRange)
  obtain ⟨-, -, -, -, cleanInRange, -⟩ := inv.sizes.2.1 _ mem
  have answer : exec (.crCantx q) s = .next (s.ok1 (boolWord (s.txRoom q))) := by
    have passed := (crQueueCheck_none q s).mpr ⟨⟨running, family, isOpen⟩, inRange⟩
    simp only [exec, execCrCantx, passed, Option.getD_none]
  rw [answer, Queue.txBuf_full_iff (validParams_QS_pos inv.valid) (inv.windows _ mem) cleanInRange]
  have word : boolWord (s.txRoom q) = 0#64 ↔ slotAt (s.queue q).txBuf (s.queue q).txIndex.toNat ≠ none := by
    unfold State.txRoom
    cases slotAt (s.queue q).txBuf (s.queue q).txIndex.toNat <;> simp [boolWord]
  rw [← word]
  exact ⟨fun h => congrArg State.v0 (Host.Outcome.next.inj h), fun h => by rw [h]; rfl⟩

/-! ## No entry is leased twice (R38) -/

/-- What an allocation that succeeds gives: the handle of an entry that was free or on the free-list, now with the stack. -/
def Allocates (s t : State) : Prop := ∃ i hdr len, t.v0 = s.ptrOf i ∧ t.pool = (s.lendEnt i hdr len).pool ∧
  ((i < s.pool.ent.length ∧ (s.entry i).tag = .free) ∨ (s.cfg.family = .token ∧ i ∈ s.token.freeTx))

theorem leaseAndEmit_allocates {s : State} (ok : (leaseAndEmit s).st = 0#8) : Allocates s (leaseAndEmit s) := by
  unfold leaseAndEmit at ok ⊢
  cases lease : s.lease with
  | none => rw [lease] at ok; exact absurd ok (finish_st_ne nofun)
  | some i =>
    obtain ⟨-, inPool, free⟩ := State.lease_some lease
    exact ⟨i, 0#64, s.a0, rfl, rfl, Or.inl ⟨inPool, free⟩⟩

theorem trTxallocBody_allocates {s : State} (family : s.cfg.family = .token) (ok : (trTxallocBody s).st = 0#8) :
    Allocates s (trTxallocBody s) := by
  cases top : s.token.freeTx.getLast? with
  | none =>
    rw [trTxallocBody, top] at ok
    exact absurd ok (finish_st_ne nofun)
  | some i =>
    rw [trTxallocBody, top] at ok ⊢
    dsimp only at ok ⊢
    split at ok
    · exact absurd ok (finish_st_ne nofun)
    · next fits =>
      rw [if_neg fits]
      exact ⟨i, _, _, rfl, rfl, Or.inr ⟨family, List.mem_of_getLast? top⟩⟩

/-- An allocation with a size check before its lease (R182, R210). -/
theorem checkedLease_allocates {s t : State} {c : Option State} {p : Prop} [Decidable p] (stops : Stops s c)
    (h : (.next (c.getD (if p then s.finish .inval else leaseAndEmit s)) : Result) = .next t) (ok : t.st = 0#8) : Allocates s t := by
  obtain rfl := Host.Outcome.next.inj h
  have passed := stops.passed ok
  rw [passed, Option.getD_none] at ok ⊢
  split at ok
  · exact absurd ok (finish_st_ne nofun)
  · next fits =>
    rw [if_neg fits]
    exact leaseAndEmit_allocates ok

section
variable {s t : State} (hs : s.halted = false)
include hs

theorem execPoolAlloc_allocates (h : execPoolAlloc s = .next t) (ok : t.st = 0#8) : Allocates s t :=
  checkedLease_allocates (stops_haltCheck hs) h ok

theorem execCrTxalloc_allocates (h : execCrTxalloc s = .next t) (ok : t.st = 0#8) : Allocates s t :=
  checkedLease_allocates (stops_crCheck hs) h ok

theorem execTrTxalloc_allocates (h : execTrTxalloc s = .next t) (ok : t.st = 0#8) : Allocates s t := by
  obtain rfl := Host.Outcome.next.inj h
  have passed := (stops_trCheck hs).passed ok
  rw [passed, Option.getD_none] at ok ⊢
  exact trTxallocBody_allocates (State.tokenOpen_of_check passed).1 ok

theorem execDevTxalloc_allocates (h : execDevTxalloc s = .next t) (ok : t.st = 0#8) : Allocates s t := by
  unfold execDevTxalloc byFamily at h
  rw [haltCheck_running hs] at h
  dsimp only at h
  split at h
  · exact execCrTxalloc_allocates hs h ok
  · exact execTrTxalloc_allocates hs h ok

end

/-- The four allocations (R182, R210, R238, R268). -/
def allocations : List Instr := [.poolAlloc, .crTxalloc, .trTxalloc, .devTxalloc]

theorem alloc_allocates {a : Instr} (ha : a ∈ allocations) {s t : State} (h : exec a s = .next t) (ok : t.st = 0#8) :
    a ≠ .sysReset ∧ s.halted = false ∧ Allocates s t := by
  have notReset : a ≠ .sysReset := by
    rintro rfl
    revert ha
    decide
  have hs : s.halted = false := by
    by_contra halted
    obtain rfl := Host.Outcome.next.inj ((exec_halted (by simpa using halted) notReset).symm.trans h)
    exact finish_st_ne (k := .badState) nofun ok
  refine ⟨notReset, hs, ?_⟩
  simp only [allocations, List.mem_cons, List.not_mem_nil, or_false] at ha
  rcases ha with rfl | rfl | rfl | rfl
  · exact execPoolAlloc_allocates hs h ok
  · exact execCrTxalloc_allocates hs h ok
  · exact execTrTxalloc_allocates hs h ok
  · exact execDevTxalloc_allocates hs h ok

/-- Entries of a pool that has its place have different pointers (R14, R76). -/
theorem State.Live.ptrOf_inj {s : State} (k : s.Live) {i j : Nat} (hi : i < s.pool.ent.length) (hj : j < s.pool.ent.length)
    (h : s.ptrOf i = s.ptrOf j) : i = j := by
  obtain ⟨-, -, -, -, -, -, entries, -, nonzero, -⟩ := k.sizes
  obtain ⟨-, noWrap, -⟩ := (poolRoom_iff _ _).mp k.placed
  rw [entries] at hi hj
  have pos : 0 < s.pool.esz.toNat := by
    refine Nat.pos_of_ne_zero fun zero => nonzero (fun n => ?_) (BitVec.eq_of_toNat_eq zero)
    rw [n] at hi
    exact absurd hi (Nat.not_lt_zero i)
  have below : ∀ x < s.pool.n.toNat, x * s.pool.esz.toNat < 2 ^ 64 := fun x hx => by
    have := Nat.mul_lt_mul_of_pos_right hx pos
    omega
  have same := congrArg BitVec.toNat ((BitVec.add_right_inj _).mp h)
  rw [BitVec.toNat_ofNat, BitVec.toNat_ofNat, Nat.mod_eq_of_lt (below i hi), Nat.mod_eq_of_lt (below j hj)] at same
  exact Nat.eq_of_mul_eq_mul_right pos same

/-- The entry an allocation takes is neither free nor with the driver afterwards, and that is where the next one takes its own. -/
theorem Allocates.lent {s t : State} (live : s.Live) {i : Nat} {hdr len : Word} (pool : t.pool = (s.lendEnt i hdr len).pool)
    (place : (i < s.pool.ent.length ∧ (s.entry i).tag = .free) ∨ (s.cfg.family = .token ∧ i ∈ s.token.freeTx)) :
    i < t.pool.ent.length ∧ (t.entry i).tag = .swStack := by
  have inPool : i < s.pool.ent.length := by
    rcases place with ⟨inPool, -⟩ | ⟨-, onList⟩
    · exact inPool
    · exact State.lt_of_tag_eq (State.owned_swDriver_of_freeTx live.owned onList) nofun
  have entry : t.entry i = (s.lendEnt i hdr len).entry i := by rw [State.entry, pool]; rfl
  refine ⟨by rw [pool]; simpa [State.lendEnt] using inPool, ?_⟩
  rw [entry, State.lendEnt, State.entry_setEnt_self inPool]

/-- Settles O18: the first allocation leaves its entry with the stack, the second takes one that is free or with the driver, and different
entries have different pointers. -/
theorem noDoubleLease : Obligations.NoDoubleLease := by
  intro s t u v inv a ha b hb first ok pool cfg freeTx second ok'
  obtain ⟨notReset, hs, i, hdr, len, ptr, pool₁, place⟩ := alloc_allocates ha first ok
  obtain ⟨-, -, j, -, -, ptr', -, place'⟩ := alloc_allocates hb second ok'
  have run := exec_run hs notReset t first
  obtain ⟨⟨-, -, -, -, cfg₁, -⟩, -⟩ := run.registers
  have inv₁ : t.Inv := run.inv hs inv
  have live₁ : t.Live := inv₁.live (by
    obtain ⟨-, -, -, busy⟩ := inv₁.codes
    by_contra halted
    rw [busy (by simpa using halted)] at ok
    exact absurd ok (by decide))
  obtain ⟨inPool, lent⟩ := Allocates.lent (inv.live hs) pool₁ place
  have entry : u.entry j = t.entry j := by rw [State.entry, pool]; rfl
  have other : j < t.pool.ent.length ∧ (t.entry j).tag ≠ .swStack := by
    rcases place' with ⟨inPool', free⟩ | ⟨family, onList⟩
    · exact ⟨pool ▸ inPool', by rw [← entry, free]; exact nofun⟩
    · rw [freeTx (by rw [← cfg₁, ← cfg]; exact family)] at onList
      have tag := State.owned_swDriver_of_freeTx live₁.owned onList
      exact ⟨State.lt_of_tag_eq tag nofun, by rw [tag]; exact nofun⟩
  intro same
  have samePtr : t.ptrOf j = t.ptrOf i := by
    have before : t.ptrOf i = s.ptrOf i := by rw [State.ptrOf, cfg₁, pool₁]; rfl
    have after : u.ptrOf j = t.ptrOf j := by rw [State.ptrOf, cfg, pool]; rfl
    rw [← after, before, ← ptr, ← ptr', same]
  rw [live₁.ptrOf_inj other.1 inPool samePtr] at other
  exact other.2 lent

end Sys2Proof.Machine
end

section
/-! The form of memory (spec/20_memory.md): every step keeps it canonical, and wide accesses are little endian at every address. -/

namespace Sys2Proof.Machine

/-! ## The canonical form (R71) -/

/-- Only the environment's accesses touch memory: the block's own moves are of buffers, not of bytes. -/
theorem Move.keepsCanonical {g : Prop} {s t : State} (h : Move g s t) (m : s.mem.wf = true) : t.mem.wf = true := by
  cases h with
  | env h => exact h.evolves.memory m
  | create => exact m
  | lend => exact m
  | giveBack => exact m
  | classic _ _ _ h => rw [h.frame]; exact m
  | token _ _ h => rw [h.frame]; exact m

theorem Moves.keepsCanonical {g : Prop} {s t : State} (h : Moves g s t) (m : s.mem.wf = true) : t.mem.wf = true := by
  induction h with
  | refl => exact m
  | tail _ move ih => exact move.keepsCanonical ih

/-- No way to end an operation touches memory. -/
theorem Ends.mem_eq {s t : State} (h : Ends s t) : t.mem = s.mem := by
  cases h <;> rfl

theorem Run.keepsCanonical {g : Prop} {s t : State} (h : Run g s t) (m : s.mem.wf = true) : t.mem.wf = true := by
  cases h with
  | plain moves ends => rw [ends.mem_eq]; exact moves.keepsCanonical m
  | @init u _ _ moves _ rings _ ends =>
    have opened : u.opened.mem.wf = true := moves.keepsCanonical m
    rw [ends.mem_eq]
    exact rings.keepsCanonical opened

theorem Stepped.keepsCanonical {s t : State} (h : Stepped s t) (m : s.mem.wf = true) : t.mem.wf = true := by
  cases h with
  | passes alike => exact alike.evolves.memory m
  | refuses _ alike => exact alike.evolves.memory m
  | runs alike _ _ run => exact run.keepsCanonical (alike.evolves.memory m)
  | resets memory alike => exact alike.evolves.memory (memory m)

/-- Settles O55: an operation is a run of moves and an end, and of these only the environment's accesses write memory. -/
theorem stepKeepsMemoryCanonical : Obligations.StepKeepsMemoryCanonical := fun _ _ canonical h =>
  (step_stepped h).2.keepsCanonical canonical

/-! ## Little endian (R70) -/

/-- A byte of a wide read is the byte at its address. -/
theorem Memory.extractLsb'_load (m : Memory) (a : Addr) {n k : Nat} (hn : n ≤ 8) (hk : k < n) :
    (m.load a n).extractLsb' (8 * k) 8 = m.get (a + BitVec.ofNat 64 k).toNat := by
  apply BitVec.eq_of_getLsbD_eq
  intro i hi
  have inRead : 8 * k + i < 8 * n := by omega
  have byte : (8 * k + i) / 8 = k := by omega
  have bit : (8 * k + i) % 8 = i := by omega
  rw [BitVec.getLsbD_extractLsb', Memory.getLsbD_load m a n _ hn, byte, bit]
  simp [hi, inRead]

/-- What a wide write leaves is the value's low bytes. -/
theorem Memory.toNat_load_store (m : Memory) (a : Addr) {n : Nat} (v : Word) (hn : n ≤ 8) :
    ((m.store a n v).load a n).toNat = v.toNat % 2 ^ (8 * n) := by
  apply Nat.eq_of_testBit_eq
  intro i
  rw [BitVec.testBit_toNat, Nat.testBit_mod_two_pow, BitVec.testBit_toNat, Memory.getLsbD_load _ _ _ _ hn]
  by_cases hi : i < 8 * n
  · have place : 8 * (i / 8) + i % 8 = i := Nat.div_add_mod i 8
    have inByte : i % 8 < 8 := Nat.mod_lt i (by decide)
    rw [Memory.get_store_inside m a n v (by omega) (i / 8) (by omega), BitVec.getLsbD_setWidth, BitVec.getLsbD_ushiftRight, place]
    simp [inByte]
  · simp [hi]

/-- A read splits at any byte: the narrower reads at the two addresses, the second shifted past the first. -/
theorem Memory.load_add (m : Memory) (a : Addr) (n k : Nat) :
    m.load a (n + k) = m.load a n ||| (m.load (a + BitVec.ofNat 64 n) k <<< (8 * n)) := by
  induction n generalizing a with
  | zero => simp [Memory.load]
  | succ n ih =>
    have next : a + BitVec.ofNat 64 (n + 1) = a + 1#64 + BitVec.ofNat 64 n := by
      rw [Nat.add_comm n 1, BitVec.ofNat_add, BitVec.add_assoc]
    calc m.load a (n + 1 + k)
        = (m.load (a + 1#64) (n + k) <<< 8) ||| (m.get a.toNat).setWidth 64 := by rw [Nat.add_right_comm, Memory.load]
      _ = ((m.load (a + 1#64) n ||| (m.load (a + 1#64 + BitVec.ofNat 64 n) k <<< (8 * n))) <<< 8)
            ||| (m.get a.toNat).setWidth 64 := by rw [ih]
      _ = m.load a (n + 1) ||| (m.load (a + BitVec.ofNat 64 (n + 1)) k <<< (8 * (n + 1))) := by
        rw [next, Memory.load, BitVec.shiftLeft_or_distrib, ← BitVec.shiftLeft_add, Nat.mul_add_one]
        ac_rfl

/-- Settles O6: a wide read by its bytes, and split after the second, third and fourth of them for the offsets of R104. -/
theorem memoryIsLittleEndian : Obligations.MemoryIsLittleEndian := by
  refine ⟨fun m a n v hn => m.toNat_load_store a v hn, fun m a n hn k hk => m.extractLsb'_load a hn hk, fun m a => ?_⟩
  have length := m.load_add (a + 8#64) 2 6
  have typeByte := m.load_add (a + 10#64) 1 5
  have command := m.load_add (a + 11#64) 1 4
  have offset : ∀ x y : Word, a + x + y = a + (x + y) := BitVec.add_assoc a
  rw [offset] at length typeByte command
  calc m.load (a + 8#64) 8
      = m.load (a + 8#64) 2 ||| (m.load (a + 10#64) 6 <<< 16) := length
    _ = m.load (a + 8#64) 2 ||| ((m.load (a + 10#64) 1 ||| (m.load (a + 11#64) 5 <<< 8)) <<< 16) := by rw [typeByte]; rfl
    _ = m.load (a + 8#64) 2 |||
          ((m.load (a + 10#64) 1 ||| ((m.load (a + 11#64) 1 ||| (m.load (a + 12#64) 4 <<< 8)) <<< 8)) <<< 16) := by
      rw [command]; rfl
    _ = _ := by simp only [BitVec.shiftLeft_or_distrib, ← BitVec.shiftLeft_add, BitVec.or_assoc, Nat.reduceAdd]

end Sys2Proof.Machine
end

section
/-! Command words (spec/30_encoding.md): the decoder and the encoder read the one operation map, and a word that has no row of it changes
`ST` alone. -/

namespace Sys2Proof

/-! ## The operation map (R112) -/

/-- What a row of the map makes of the field `QID`: any queue number for an operation that takes one, zero for one that takes none. -/
inductive OpForm.Reads : OpForm → BitVec 8 → Instr → Prop where
  | queued (make : Nat → Instr) (qid : BitVec 8) : (OpForm.queued make).Reads qid (make qid.toNat)
  | plain (i : Instr) : (OpForm.plain i).Reads 0#8 i

theorem OpForm.reads_queued_iff {make : Nat → Instr} {qid : BitVec 8} {i : Instr} :
    (OpForm.queued make).Reads qid i ↔ make qid.toNat = i :=
  ⟨fun h => by cases h; rfl, fun h => h ▸ .queued make qid⟩

theorem OpForm.reads_plain_iff {j : Instr} {qid : BitVec 8} {i : Instr} : (OpForm.plain j).Reads qid i ↔ qid = 0#8 ∧ j = i :=
  ⟨fun h => by cases h; exact ⟨rfl, rfl⟩, fun ⟨zero, same⟩ => zero ▸ same ▸ .plain j⟩

theorem Instr.wellFormed_iff {i : Instr} : i.wellFormed = true ↔ ∀ q, i.queue? = some q → q < 256 := by
  unfold Instr.wellFormed
  cases i.queue? <;> simp

/-- The row of a well-formed operation reads it back. -/
theorem opForm_reads_opcode {i : Instr} (h : i.wellFormed = true) :
    ∃ f, opForm i.opcode.toNat = some f ∧ f.Reads (BitVec.ofNat 8 (i.queue?.getD 0)) i := by
  rcases opForm_opcode i with row | ⟨make, q, row, queue, made⟩
  · obtain ⟨noQueue, -⟩ := opForm_plain row
    exact ⟨_, row, OpForm.reads_plain_iff.mpr ⟨by rw [noQueue]; rfl, rfl⟩⟩
  · have fits : (BitVec.ofNat 8 q).toNat = q := Nat.mod_eq_of_lt (Instr.wellFormed_iff.mp h q queue)
    exact ⟨_, row, OpForm.reads_queued_iff.mpr (by rw [queue, Option.getD_some, fits, made])⟩

/-- What a row reads is well formed, and has the code and the field `QID` it was read from. -/
theorem OpForm.Reads.fields {op : Nat} {f : OpForm} {qid : BitVec 8} {i : Instr} (h : f.Reads qid i) (row : opForm op = some f) :
    i.wellFormed = true ∧ i.opcode.toNat = op ∧ BitVec.ofNat 8 (i.queue?.getD 0) = qid := by
  cases h with
  | queued make =>
    obtain ⟨queue, code⟩ := opForm_queued row qid.toNat
    refine ⟨Instr.wellFormed_iff.mpr fun q hq => ?_, code, ?_⟩
    · obtain rfl : qid.toNat = q := Option.some.inj (queue.symm.trans hq)
      exact qid.isLt
    · rw [queue, Option.getD_some, BitVec.ofNat_toNat, BitVec.setWidth_eq]
  | plain =>
    obtain ⟨queue, code⟩ := opForm_plain row
    exact ⟨Instr.wellFormed_iff.mpr (by rw [queue]; exact nofun), code, by rw [queue]; rfl⟩

/-! ## Decode and encode agree (R110, R111) -/

/-- A word decodes exactly when its upper half is zero and its code has a row that reads its field `QID`. -/
theorem decode_eq_ok_iff {c : BitVec 32} {i : Instr} :
    decode c = .ok i ↔ zeroField c = 0#16 ∧ ∃ f, opForm (opField c).toNat = some f ∧ f.Reads (qidField c) i := by
  unfold decode
  by_cases high : zeroField c = 0#16
  · rw [if_neg (not_not_intro (show zeroField c = 0 from high))]
    rcases opForm (opField c).toNat with _ | make | j
    · simp
    · simp [high, OpForm.reads_queued_iff]
    · by_cases qid : qidField c = 0#8 <;> simp [high, qid, OpForm.reads_plain_iff]
  · simp [high]

/-- A word is its three fields put together. -/
theorem append_fields (c : BitVec 32) : zeroField c ++ qidField c ++ opField c = c := by
  have high : c.extractLsb' 16 16 ++ c.extractLsb' 8 8 = c.extractLsb' 8 24 := BitVec.extractLsb'_append_extractLsb'_eq_extractLsb' rfl
  calc zeroField c ++ qidField c ++ opField c
      = c.extractLsb' 8 24 ++ c.extractLsb' 0 8 := congrArg (· ++ c.extractLsb' 0 8) high
    _ = c.extractLsb' 0 32 := BitVec.extractLsb'_append_extractLsb'_eq_extractLsb' rfl
    _ = c := BitVec.extractLsb'_eq_self

/-- Settles O1: the word's fields are the operation's code and queue, and the row at that code reads the operation back. -/
theorem decodeOfEncode : Obligations.DecodeOfEncode := by
  intro i wf
  obtain ⟨code, qid, high⟩ := Laws.encode_fields i
  rw [decode_eq_ok_iff, code, qid]
  exact ⟨high, opForm_reads_opcode wf⟩

/-- Settles O2: the operation read has the code and the queue number of the word's fields, and with the zero field they are the word. -/
theorem encodeOfDecode : Obligations.EncodeOfDecode := by
  intro c i decoded
  obtain ⟨high, f, row, reads⟩ := decode_eq_ok_iff.mp decoded
  obtain ⟨wf, code, qid⟩ := reads.fields row
  refine ⟨wf, ?_⟩
  calc encode i = zeroField c ++ qidField c ++ opField c := by rw [encode, qid, BitVec.eq_of_toNat_eq code, high]
    _ = c := append_fields c

/-! ## Reserved words (R113) -/

/-- The words that decode to nothing, by the row at their code. -/
theorem decode_ne_ok_iff {c : BitVec 32} : (∀ i, decode c ≠ .ok i) ↔
    zeroField c ≠ 0#16 ∨ opForm (opField c).toNat = none ∨
      (qidField c ≠ 0#8 ∧ ∃ i, opForm (opField c).toNat = some (.plain i)) := by
  simp only [ne_eq, decode_eq_ok_iff]
  by_cases high : zeroField c = 0#16
  · cases row : opForm (opField c).toNat with
    | none => simp
    | some f =>
      cases f with
      | queued make => simp [high, OpForm.reads_queued_iff]
      | plain i => simp [high, OpForm.reads_plain_iff]
  · simp [high]

end Sys2Proof

namespace Sys2Proof.Machine

/-- The codes that R113 lists are those that have no row in the map. -/
theorem opForm_eq_none_iff {op : Nat} : opForm op = none ↔ reservedOp op := by
  unfold reservedOp opForm
  split
  case h_51 =>
    refine iff_of_true rfl ?_
    simp only [imp_false] at *
    omega
  all_goals exact iff_of_false nofun (by decide)

/-- The codes at which R113 asks for a zero field `QID` are those of the rows without a queue. -/
theorem exists_plain_iff {op : Nat} : (∃ i, opForm op = some (.plain i)) ↔
    op ∈ [0x20, 0x21, 0x22, 0x23, 0x30, 0x33, 0x37, 0x40, 0x41, 0x42, 0x43, 0x44, 0x45, 0x46, 0x47, 0x50, 0x53, 0x57, 0x58, 0x7F] := by
  constructor
  · rintro ⟨i, row⟩
    unfold opForm at row
    split at row <;> cases row <;> decide
  · intro listed
    fin_cases listed <;> exact ⟨_, rfl⟩

theorem reservedWord_iff {c : BitVec 32} : reservedWord c ↔ ∀ i, decode c ≠ .ok i := by
  rw [decode_ne_ok_iff, opForm_eq_none_iff, exists_plain_iff]
  rfl

theorem reservedCommand_eq (s : State) : reservedCommand s = { s with st := if s.halted then 4#8 else 5#8 } := by
  by_cases hs : s.halted = true
  · rw [reservedCommand, haltCheck_halted hs, if_pos hs]; rfl
  · rw [reservedCommand, haltCheck_running (Bool.eq_false_of_not_eq_true hs), if_neg hs]; rfl

theorem runCommand_of_reservedWord {s : State} (h : reservedWord s.cmd) :
    runCommand s = .next (reservedCommand { s with phase := .idle }) := by
  cases decoded : decode s.cmd with
  | error => rw [runCommand, decoded]
  | ok i => exact absurd decoded (reservedWord_iff.mp h i)

/-- Settles O3: a word is listed exactly when the row at its code does not read it, and the answer of a word that is not read is one of
the two values of `ST`. -/
theorem reservedWordsAnswerUnsupported : Obligations.ReservedWordsAnswerUnsupported := by
  refine ⟨fun _ => reservedWord_iff, fun s valid issued reserved => ?_⟩
  have built : ¬ validParams s.cfg = false := by rw [valid]; exact nofun
  rw [step, stepOf, if_neg built, issued]
  exact (runCommand_of_reservedWord reserved).trans (congrArg Host.Outcome.next (reservedCommand_eq _))

/-- Settles O4: the words are closed, so each is decoded by evaluation. -/
theorem sampleWordsDecode : Obligations.SampleWordsDecode :=
  ⟨rfl, rfl, rfl, rfl, rfl, rfl, rfl, rfl, rfl, rfl, rfl⟩

end Sys2Proof.Machine
end

section
/-! The descriptor codec, both formats: what a read of a word gives after writes at other addresses, fields as shifts and masks, and how
an operation behind the preamble of R140 and R160 answers. -/

namespace Sys2Proof.Machine

/-! ## Which bytes a write changes (R70) -/

theorem inBytes.mono {a : Addr} {n N x : Nat} (h : inBytes a n x) (hn : n ≤ N) : inBytes a N x := by
  obtain ⟨k, hk, at_k⟩ := h
  exact ⟨k, hk.trans_le hn, at_k⟩

/-- A field of a descriptor is inside the descriptor. -/
theorem inBytes.of_offset {a : Addr} {j n N x : Nat} (h : inBytes (a + BitVec.ofNat 64 j) n x) (hn : j + n ≤ N) : inBytes a N x := by
  obtain ⟨k, hk, at_k⟩ := h
  exact ⟨j + k, by omega, by rw [at_k, BitVec.add_assoc, ← BitVec.ofNat_add]⟩

/-- Offsets from one address are compared as numbers, also where the addresses wrap. -/
theorem inBytes_offset_iff {a : Addr} {i j n : Nat} (hi : i < 2 ^ 64) (hn : j + n ≤ 2 ^ 64) :
    inBytes (a + BitVec.ofNat 64 j) n (a + BitVec.ofNat 64 i).toNat ↔ j ≤ i ∧ i < j + n := by
  constructor
  · rintro ⟨k, hk, at_k⟩
    rw [BitVec.add_assoc, ← BitVec.ofNat_add] at at_k
    have offsets := congrArg BitVec.toNat (BitVec.add_right_inj a |>.mp (BitVec.eq_of_toNat_eq at_k))
    rw [BitVec.toNat_ofNat, BitVec.toNat_ofNat, Nat.mod_eq_of_lt hi, Nat.mod_eq_of_lt (by omega)] at offsets
    omega
  · rintro ⟨lower, upper⟩
    exact ⟨i - j, by omega, by rw [BitVec.add_assoc, ← BitVec.ofNat_add, Nat.add_sub_cancel' lower]⟩

theorem bytesKept_store (m : Memory) (a : Addr) (n : Nat) (v : Word) : bytesKept m (m.store a n v) (inBytes a n) :=
  fun x outside => m.get_store_outside a n v x fun k hk at_k => outside ⟨k, hk, at_k⟩

theorem bytesKept.mono {m m' : Memory} {P Q : Nat → Prop} (h : bytesKept m m' P) (sub : ∀ x, P x → Q x) : bytesKept m m' Q :=
  fun x outside => h x (mt (sub x) outside)

theorem bytesKept.trans {m m' m'' : Memory} {P : Nat → Prop} (h : bytesKept m m' P) (k : bytesKept m' m'' P) : bytesKept m m'' P :=
  fun x outside => (k x outside).trans (h x outside)

/-- A read none of whose bytes changed. -/
theorem bytesKept.load_eq {m m' : Memory} {P : Nat → Prop} (h : bytesKept m m' P) {a : Addr} {n : Nat} (hn : n ≤ 8)
    (outside : ∀ k < n, ¬ P (a + BitVec.ofNat 64 k).toNat) : m'.load a n = m.load a n := by
  apply BitVec.eq_of_getLsbD_eq
  intro i _
  rw [Memory.getLsbD_load _ _ _ _ hn, Memory.getLsbD_load _ _ _ _ hn]
  by_cases inRead : i < 8 * n
  · rw [h _ (outside (i / 8) (by omega))]
  · simp [inRead]

/-- A word just written reads back. -/
theorem Memory.load_store_word (m : Memory) (a : Addr) (v : Word) : (m.store a 8 v).load a 8 = v := by
  apply BitVec.eq_of_toNat_eq
  rw [m.toNat_load_store a v le_rfl]
  exact Nat.mod_eq_of_lt v.isLt

/-! ## Fields (R9) -/

/-- A field is the word shifted down, under a mask of the field's width. -/
theorem bits_eq_shift_and_mask (v : Word) (hi lo : Nat) : bits v hi lo = (v >>> lo) &&& BitVec.ofNat 64 (2 ^ (hi + 1 - lo) - 1) := by
  apply BitVec.eq_of_getLsbD_eq
  intro i inWord
  rw [bits, BitVec.getLsbD_setWidth, BitVec.getLsbD_extractLsb', BitVec.getLsbD_and, BitVec.getLsbD_ushiftRight, BitVec.getLsbD_ofNat,
    Nat.testBit_two_pow_sub_one, Bool.and_comm (v.getLsbD _)]
  simp [inWord]

theorem bits_low_eq_mask (v : Word) (hi : Nat) : bits v hi 0 = v &&& BitVec.ofNat 64 (2 ^ (hi + 1) - 1) := by
  rw [bits_eq_shift_and_mask, BitVec.ushiftRight_zero]; rfl

/-- A field that reaches the top of the word needs no mask. -/
theorem bits_top_eq_shift (v : Word) (lo : Nat) : bits v 63 lo = v >>> lo := by
  apply BitVec.eq_of_getLsbD_eq
  intro i inWord
  rw [bits, BitVec.getLsbD_setWidth, BitVec.getLsbD_extractLsb', BitVec.getLsbD_ushiftRight]
  by_cases inField : i < 64 - lo
  · simp [inWord, inField]
  · have beyond : v.getLsbD (lo + i) = false := BitVec.getLsbD_of_ge v _ (by omega)
    simp [beyond]

/-- A single bit as `V0` gives it. -/
theorem boolWord_getLsbD (v : Word) (i : Nat) : boolWord (v.getLsbD i) = (v >>> i) &&& 1#64 := by
  have bit : (v >>> i).getLsbD 0 = v.getLsbD i := BitVec.getLsbD_ushiftRight v i 0
  rw [BitVec.and_one_eq_setWidth_ofBool_getLsbD, bit]
  cases v.getLsbD i <;> rfl

/-! ## The turn before an access (R79) -/

theorem State.afterTurn_eq (s : State) : s.afterTurn = s.envTurn := s.envTurn_frame.symm

theorem State.afterTurn_quiet {s : State} (h : s.quiet) : s.afterTurn = s := s.afterTurn_eq.trans (State.envTurn_quiet h)

/-- A change around the block and OK. -/
theorem EnvChange.onlyMemory {s t : State} (h : EnvChange s t) : s.onlyMemory t.ok := by
  rw [State.onlyMemory, h.same]; rfl

/-- OK after stores alone. -/
theorem State.ok_of_mem {s t : State} {m : Memory} (h : t = { s with mem := m }) :
    t.ok.mem = m ∧ t.ok = { s with mem := t.ok.mem, st := 0#8 } := by
  subst h; exact ⟨rfl, rfl⟩

/-! ## Behind the preamble (R140, R160) -/

theorem codecCheck_ready {q : Nat} {s : State} (ready : codecReady q s) : codecCheck q s = none := (codecCheck_none q s).mpr ready

theorem codecCheck_out_of_range {q : Nat} {s : State} (hs : s.halted = false) (out : QN s.cfg ≤ q ∨ QS s.cfg ≤ s.a0.toNat) :
    codecCheck q s = some (s.finish .inval) := by
  rw [codecCheck_eq, if_neg (by rw [hs]; exact nofun)]
  by_cases queue : QN s.cfg ≤ q
  · exact if_pos queue
  · rw [if_neg queue, if_pos (out.resolve_left queue)]

/-- An operation that runs behind the preamble reaches its own pseudocode. -/
theorem codec_ready {q : Nat} {s : State} (ready : codecReady q s) (t : State) :
    (.next ((codecCheck q s).getD t) : Result) = .next t := by
  rw [codecCheck_ready ready, Option.getD_none]

/-- An operation that runs behind the preamble refuses as the preamble does. -/
theorem codecRefusals_of_exec {make : Nat → Instr} {own : Nat → State → State}
    (run : ∀ q s, exec (make q) s = .next ((codecCheck q s).getD (own q s))) : CodecRefusals make := by
  refine fun q s => ⟨fun hs => ?_, fun hs out => ?_⟩
  · rw [run, codecCheck_halted hs]; rfl
  · rw [run, codecCheck_out_of_range hs out]; rfl

/-- An operation that behind the preamble makes one read and gives `f` of it in `V0`. -/
theorem codecRead_of_exec {make : Nat → Instr} {base : Params → Nat → Nat → Addr} {off : Addr} {n : Nat} {f : Word → Word}
    (run : ∀ q s, exec (make q) s =
      .next ((codecCheck q s).getD (s.envTurn.ok1 (f (s.envTurn.mem.load (base s.cfg q s.a0.toNat + off) n))))) :
    CodecRead make base off n f := by
  refine ⟨codecRefusals_of_exec run, fun q s ready => ⟨?_, fun quiet x => ?_⟩⟩
  · rw [run, codec_ready ready, State.afterTurn_eq]; rfl
  · rw [State.afterTurn_quiet quiet]

end Sys2Proof.Machine
end

section
/-! The receive descriptor codec (spec/40_codec_rx.md): the accessors give the fields of R102, the writing operations the words of R141
to R143. -/

namespace Sys2Proof.Machine

/-! ## Accessors (R144 to R154) -/

theorem codecRead_of_rxReadW0 {make : Nat → Instr} {f g : Word → Word} (run : ∀ q s, exec (make q) s = .next (rxReadW0 q g s))
    (field : ∀ w, g w = f w) : CodecRead make rxd 0#64 8 f := by
  obtain rfl : g = f := funext field
  refine codecRead_of_exec fun q s => ?_
  rw [BitVec.add_zero]
  exact run q s

theorem codecRead_of_rxReadW1 {make : Nat → Instr} {f g : Word → Word} (run : ∀ q s, exec (make q) s = .next (rxReadW1 q g s))
    (field : ∀ w, g w = f w) : CodecRead make rxd 8#64 8 f := by
  obtain rfl : g = f := funext field
  exact codecRead_of_exec run

/-- Settles O7: each accessor is one read behind the preamble, and its field of R102 is a bit, a field at the bottom, in the middle or
at the top of the word. -/
theorem rxdAccessorsExtractFields : Obligations.RxdAccessorsExtractFields := by
  refine ⟨?dd, ?eop, ?len, ?rssType, ?pktType, ?hdrLen, ?rssHash, ?xstatus, ?xerror, ?vlan⟩
  case dd => exact codecRead_of_rxReadW1 (fun _ _ => rfl) fun w => (boolWord_getLsbD w 0).trans (by rw [BitVec.ushiftRight_zero])
  case eop => exact codecRead_of_rxReadW1 (fun _ _ => rfl) fun w => boolWord_getLsbD w 1
  case len => exact codecRead_of_rxReadW1 (fun _ _ => rfl) fun w => bits_eq_shift_and_mask w 47 32
  case rssType => exact codecRead_of_rxReadW0 (fun _ _ => rfl) fun w => bits_low_eq_mask w 3
  case pktType => exact codecRead_of_rxReadW0 (fun _ _ => rfl) fun w => bits_eq_shift_and_mask w 16 4
  case hdrLen => exact codecRead_of_rxReadW0 (fun _ _ => rfl) fun w => bits_eq_shift_and_mask w 30 21
  case rssHash => exact codecRead_of_rxReadW0 (fun _ _ => rfl) fun w => bits_top_eq_shift w 32
  case xstatus => exact codecRead_of_rxReadW1 (fun _ _ => rfl) fun w => bits_low_eq_mask w 19
  case xerror => exact codecRead_of_rxReadW1 (fun _ _ => rfl) fun w => bits_eq_shift_and_mask w 31 20
  case vlan => exact codecRead_of_rxReadW1 (fun _ _ => rfl) fun w => bits_top_eq_shift w 48

/-! ## Writing operations (R141 to R143) -/

section
variable {s : State} (quiet : s.quiet) (d : Addr)
include quiet

theorem State.rxInit_quiet : s.rxInit d = { s with mem := (s.mem.store d 8 0#64).store (d + 8#64) 8 0#64 } := by
  rw [State.rxInit, State.memWrite_quiet quiet]
  exact State.memWrite_quiet (s := { s with mem := s.mem.store d 8 0#64 }) quiet _ _ _

theorem State.rxSetAddr_quiet (a : Word) : s.rxSetAddr d a = { s with mem := s.mem.store d 8 a } := State.memWrite_quiet quiet _ _ _

theorem State.rxRstStat_quiet : s.rxRstStat d = { s with mem := s.mem.store (d + 8#64) 8 0#64 } := State.memWrite_quiet quiet _ _ _

end

/-- The second word of a descriptor is written without touching the first. -/
theorem Memory.load_store_second (m : Memory) (d : Addr) (v : Word) : (m.store (d + 8#64) 8 v).load d 8 = m.load d 8 :=
  (bytesKept_store m (d + 8#64) 8 v).load_eq le_rfl fun k hk inside => by
    have := (inBytes_offset_iff (by omega) (by omega)).mp inside
    omega

/-- What two words written one after the other leave: each of them, and every byte outside the descriptor. -/
theorem Memory.store_words (m : Memory) (d : Addr) (v w : Word) :
    ((m.store d 8 v).store (d + 8#64) 8 w).load d 8 = v ∧ ((m.store d 8 v).store (d + 8#64) 8 w).load (d + 8#64) 8 = w ∧
      bytesKept m ((m.store d 8 v).store (d + 8#64) 8 w) (inBytes d 16) := by
  refine ⟨?_, Memory.load_store_word _ _ w, ?_⟩
  · rw [Memory.load_store_second, Memory.load_store_word]
  · have first : bytesKept m (m.store d 8 v) (inBytes d 16) := (bytesKept_store m d 8 v).mono fun _ h => h.mono (by decide)
    exact first.trans ((bytesKept_store _ (d + 8#64) 8 w).mono fun _ h => h.of_offset (by decide))

/-- What one word written leaves: the word, and every other byte. -/
theorem Memory.store_word (m : Memory) (a : Addr) (v : Word) :
    (m.store a 8 v).load a 8 = v ∧ bytesKept m (m.store a 8 v) (inBytes a 8) :=
  ⟨m.load_store_word a v, bytesKept_store m a 8 v⟩

/-- Settles O8: the accesses behind the preamble change nothing of the block, and with no device step in between they are the stores
alone, each word read back past the store of the other. -/
theorem rxdWritesDescriptor : Obligations.RxdWritesDescriptor := by
  refine ⟨codecRefusals_of_exec fun _ _ => rfl, codecRefusals_of_exec fun _ _ => rfl, codecRefusals_of_exec fun _ _ => rfl,
    fun q s ready => ⟨?init, ?setAddr, ?rstStat⟩⟩
  case init =>
    refine ⟨_, codec_ready ready _, (s.rxInit_envChange _).onlyMemory, fun quiet => ?_⟩
    obtain ⟨mem, only⟩ := State.ok_of_mem (State.rxInit_quiet quiet (rxdOf q s))
    exact ⟨only, mem ▸ s.mem.store_words (rxd s.cfg q s.a0.toNat) 0#64 0#64⟩
  case setAddr =>
    refine ⟨_, codec_ready ready _, (s.rxSetAddr_envChange _ _).onlyMemory, fun quiet => ?_⟩
    obtain ⟨mem, only⟩ := State.ok_of_mem (State.rxSetAddr_quiet quiet (rxdOf q s) s.a1)
    exact ⟨only, mem ▸ s.mem.store_word (rxd s.cfg q s.a0.toNat) s.a1⟩
  case rstStat =>
    refine ⟨_, codec_ready ready _, (s.rxRstStat_envChange _).onlyMemory, fun quiet => ?_⟩
    obtain ⟨mem, only⟩ := State.ok_of_mem (State.rxRstStat_quiet quiet (rxdOf q s))
    exact ⟨only, mem ▸ s.mem.store_word (rxd s.cfg q s.a0.toNat + 8#64) 0#64⟩

end Sys2Proof.Machine
end

section
/-! The transmit descriptor codec (spec/41_codec_tx.md): a descriptor is written field by field, in two orders; each field reads back,
and the fields give the words of R117. -/

namespace Sys2Proof.Machine

/-! ## Fields written one after the other (R70, R104) -/

/-- A field of a descriptor as it is written: its offset, its width in bytes and its value. -/
structure FieldWrite where
  off : Nat
  size : Nat
  val : Word

/-- The field lies in the 16 bytes of a descriptor, and its value in the field. -/
def FieldWrite.Fits (f : FieldWrite) : Prop := f.off + f.size ≤ 16 ∧ f.size ≤ 8 ∧ f.val.toNat < 2 ^ (8 * f.size)

/-- The fields share no byte. -/
def FieldWrite.Apart (f g : FieldWrite) : Prop := f.off + f.size ≤ g.off ∨ g.off + g.size ≤ f.off

/-- The stores of the fields of the descriptor at `d`, in the order of the list. -/
def Memory.storeFields (m : Memory) (d : Addr) : List FieldWrite → Memory
  | [] => m
  | f :: fs => (m.store (d + BitVec.ofNat 64 f.off) f.size f.val).storeFields d fs

/-- The block's accesses that write the fields, each with the environment's turn before it (R79). -/
def State.writeFields (s : State) (d : Addr) : List FieldWrite → State
  | [] => s
  | f :: fs => (s.memWrite (d + BitVec.ofNat 64 f.off) f.size f.val).writeFields d fs

theorem State.writeFields_quiet {s : State} (quiet : s.quiet) (d : Addr) (fs : List FieldWrite) :
    s.writeFields d fs = { s with mem := s.mem.storeFields d fs } := by
  induction fs generalizing s with
  | nil => rfl
  | cons f fs ih =>
    rw [State.writeFields, State.memWrite_quiet quiet]
    exact ih (s := { s with mem := s.mem.store _ _ _ }) quiet

theorem Memory.load_store_of_lt (m : Memory) (a : Addr) {n : Nat} {v : Word} (hn : n ≤ 8) (hv : v.toNat < 2 ^ (8 * n)) :
    (m.store a n v).load a n = v := by
  apply BitVec.eq_of_toNat_eq
  rw [m.toNat_load_store a v hn, Nat.mod_eq_of_lt hv]

theorem Memory.bytesKept_storeFields (m : Memory) (d : Addr) (fs : List FieldWrite) :
    bytesKept m (m.storeFields d fs) fun x => ∃ f ∈ fs, inBytes (d + BitVec.ofNat 64 f.off) f.size x := by
  induction fs generalizing m with
  | nil => exact fun _ _ => rfl
  | cons f fs ih =>
    have first := (bytesKept_store m (d + BitVec.ofNat 64 f.off) f.size f.val).mono
      fun x inside => (⟨f, List.mem_cons_self, inside⟩ : ∃ g ∈ f :: fs, inBytes (d + BitVec.ofNat 64 g.off) g.size x)
    exact first.trans ((ih _).mono fun x ⟨g, later, inside⟩ => ⟨g, List.mem_cons_of_mem f later, inside⟩)

/-- Every byte outside the descriptor reads as before. -/
theorem Memory.storeFields_kept (m : Memory) (d : Addr) {fs : List FieldWrite} (fits : ∀ f ∈ fs, f.Fits) :
    bytesKept m (m.storeFields d fs) (inBytes d 16) :=
  (m.bytesKept_storeFields d fs).mono fun _ ⟨f, hf, inside⟩ => inside.of_offset (fits f hf).1

/-- A field reads back past the fields written after it. -/
theorem Memory.load_storeFields (m : Memory) (d : Addr) {fs : List FieldWrite} (apart : fs.Pairwise FieldWrite.Apart)
    (fits : ∀ f ∈ fs, f.Fits) {f : FieldWrite} (hf : f ∈ fs) :
    (m.storeFields d fs).load (d + BitVec.ofNat 64 f.off) f.size = f.val := by
  induction fs generalizing m with
  | nil => exact absurd hf List.not_mem_nil
  | cons g fs ih =>
    obtain ⟨apartFromRest, restApart⟩ := List.pairwise_cons.mp apart
    rcases List.mem_cons.mp hf with rfl | later
    · obtain ⟨inside, width, value⟩ := fits f hf
      refine (((m.store _ _ _).bytesKept_storeFields d fs).load_eq width ?_).trans (m.load_store_of_lt _ width value)
      rintro k hk ⟨h, hh, touched⟩
      obtain ⟨inside', -, -⟩ := fits h (List.mem_cons_of_mem f hh)
      rw [BitVec.add_assoc, ← BitVec.ofNat_add, inBytes_offset_iff (by omega) (by omega)] at touched
      rcases apartFromRest h hh with below | above <;> omega
    · exact ih _ restApart (fun h hh => fits h (List.mem_cons_of_mem g hh)) later

/-! ## Fields as bit ranges (R9, R105, R109) -/

theorem bits_toNat_lt (v : Word) (hi lo : Nat) : (bits v hi lo).toNat < 2 ^ (hi + 1 - lo) := by
  rw [bits, BitVec.toNat_setWidth]
  exact (Nat.mod_le _ _).trans_lt (BitVec.isLt _)

theorem getLsbD_bits (v : Word) (hi lo : Nat) {i : Nat} (inWord : i < 64) :
    (bits v hi lo).getLsbD i = (decide (i < hi + 1 - lo) && v.getLsbD (lo + i)) := by
  rw [bits, BitVec.getLsbD_setWidth, BitVec.getLsbD_extractLsb']
  simp [inWord]

/-- A shift up drops the bits that `trunc_32` drops. -/
theorem txPacked_shiftLeft (len : Word) : txPacked len <<< 32 = (len <<< 14) <<< 32 := by
  apply BitVec.eq_of_getLsbD_eq
  intro i inWord
  rw [BitVec.getLsbD_shiftLeft, BitVec.getLsbD_shiftLeft, txPacked, txPaylenShift, getLsbD_bits _ _ _ (by omega)]
  have kept : i - 32 < 31 + 1 - 0 := by omega
  simp [kept]

/-- The packed word gives 18 bits of the length back (R109). -/
theorem txPaylen_txPacked (len : Word) : txPaylen (txPacked len) = len &&& 0x3FFFF#64 := by
  refine Eq.trans (BitVec.eq_of_getLsbD_eq ?_) (bits_low_eq_mask len 17)
  intro i inWord
  rw [txPaylen, getLsbD_bits _ _ _ inWord, getLsbD_bits _ _ _ inWord]
  by_cases inField : i < 18
  · rw [txPacked, getLsbD_bits _ _ _ (by omega), txPaylenShift, BitVec.getLsbD_shiftLeft]
    have inPacked : 14 + i < 31 + 1 - 0 := by omega
    have inWord' : 14 + i < 64 := by omega
    simp [inField, inPacked, inWord']
  · simp [inField]

/-- `PAYLEN` in its place in the packed word. -/
theorem and_paylen_mask (p : Word) : p &&& 0xFFFFC000#64 = ((p >>> 14) &&& 0x3FFFF#64) <<< 14 := by
  have mask : (0xFFFFC000#64 : Word) = 0x3FFFF#64 <<< 14 := rfl
  rw [mask]
  apply BitVec.eq_of_getLsbD_eq
  intro i inWord
  simp only [BitVec.getLsbD_and, BitVec.getLsbD_shiftLeft, BitVec.getLsbD_ushiftRight]
  by_cases low : i < 14
  · simp [low]
  · rw [Nat.add_sub_cancel' (by omega)]
    simp [low, inWord]

/-- A value below `2 ^ n` is its low `n` bits. -/
theorem and_mask_of_lt {v : Word} {n : Nat} (hn : n ≤ 64) (h : v.toNat < 2 ^ n) : v &&& BitVec.ofNat 64 (2 ^ n - 1) = v := by
  have inWord : 2 ^ n - 1 < 2 ^ 64 := by have := Nat.pow_le_pow_right (show 0 < 2 by decide) hn; omega
  apply BitVec.eq_of_toNat_eq
  rw [BitVec.toNat_and, BitVec.toNat_ofNat, Nat.mod_eq_of_lt inWord, Nat.and_two_pow_sub_one_eq_mod, Nat.mod_eq_of_lt h]

/-! ## The words of R117 -/

/-- What `TXD.INIT` writes (R161). -/
def initFields : List FieldWrite := [⟨0, 8, 0#64⟩, ⟨8, 2, 0#64⟩, ⟨10, 1, 0#64⟩, ⟨11, 1, 0#64⟩, ⟨12, 4, 0#64⟩]

/-- What `TXD.SEND` writes, the command byte last (R162). -/
def sendFields (a len : Word) : List FieldWrite :=
  [⟨0, 8, a⟩, ⟨8, 2, txDataLen len⟩, ⟨10, 1, txTypeByte⟩, ⟨12, 4, txPacked len⟩, ⟨11, 1, txCommandByte⟩]

/-- The accesses of `TXD.INIT` write the fields in the order of their offsets. -/
theorem State.txInit_eq_writeFields (s : State) (d : Addr) : s.txInit d = s.writeFields d initFields := by
  simp only [initFields, State.writeFields, BitVec.add_zero]; rfl

/-- The accesses of `TXD.SEND` write the fields, the command byte last. -/
theorem State.txSend_eq_writeFields (s : State) (d : Addr) (a len : Word) : s.txSend d a len = s.writeFields d (sendFields a len) := by
  simp only [sendFields, State.writeFields, BitVec.add_zero]; rfl

section
variable {s : State} (quiet : s.quiet) (d : Addr)
include quiet

theorem State.txInit_quiet : s.txInit d = { s with mem := s.mem.storeFields d initFields } :=
  (s.txInit_eq_writeFields d).trans (State.writeFields_quiet quiet d _)

theorem State.txSend_quiet (a len : Word) : s.txSend d a len = { s with mem := s.mem.storeFields d (sendFields a len) } :=
  (s.txSend_eq_writeFields d a len).trans (State.writeFields_quiet quiet d _)

end

theorem initFields_apart : initFields.Pairwise FieldWrite.Apart := by simp [initFields, FieldWrite.Apart]

theorem initFields_fits : ∀ f ∈ initFields, f.Fits := by simp [initFields, FieldWrite.Fits]

theorem sendFields_apart (a len : Word) : (sendFields a len).Pairwise FieldWrite.Apart := by simp [sendFields, FieldWrite.Apart]

theorem sendFields_fits (a len : Word) : ∀ f ∈ sendFields a len, f.Fits := by
  have address : a.toNat < 2 ^ 64 := a.isLt
  have dataLen : (txDataLen len).toNat < 2 ^ 16 := bits_toNat_lt len 15 0
  have packed : (txPacked len).toNat < 2 ^ 32 := bits_toNat_lt (len <<< txPaylenShift) 31 0
  have typeByte : txTypeByte.toNat < 2 ^ 8 := by decide
  have command : txCommandByte.toNat < 2 ^ 8 := by decide
  simpa [sendFields, FieldWrite.Fits] using ⟨address, dataLen, typeByte, packed, command⟩

/-- The five fields of a descriptor as they read after `TXD.SEND` or `TXD.INIT`. -/
structure TxFields (m : Memory) (d : Addr) (addr dataLen typeByte command packed : Word) : Prop where
  addr : m.load d 8 = addr
  dataLen : m.load (d + 8#64) 2 = dataLen
  typeByte : m.load (d + 10#64) 1 = typeByte
  command : m.load (d + 11#64) 1 = command
  packed : m.load (d + 12#64) 4 = packed

/-- Fields of R104 written in any order read back. -/
theorem Memory.txFields_storeFields (m : Memory) (d : Addr) {fs : List FieldWrite} {addr dataLen typeByte command packed : Word}
    (apart : fs.Pairwise FieldWrite.Apart) (fits : ∀ f ∈ fs, f.Fits) (haddr : ⟨0, 8, addr⟩ ∈ fs) (hlen : ⟨8, 2, dataLen⟩ ∈ fs)
    (htype : ⟨10, 1, typeByte⟩ ∈ fs) (hcommand : ⟨11, 1, command⟩ ∈ fs) (hpacked : ⟨12, 4, packed⟩ ∈ fs) :
    TxFields (m.storeFields d fs) d addr dataLen typeByte command packed := by
  have reads {f : FieldWrite} (hf : f ∈ fs) := m.load_storeFields d apart fits hf
  have first := reads haddr
  rw [BitVec.add_zero] at first
  exact ⟨first, reads hlen, reads htype, reads hcommand, reads hpacked⟩

theorem Memory.txFields_initFields (m : Memory) (d : Addr) : TxFields (m.storeFields d initFields) d 0#64 0#64 0#64 0#64 0#64 := by
  apply m.txFields_storeFields d initFields_apart initFields_fits <;> simp [initFields]

theorem Memory.txFields_sendFields (m : Memory) (d : Addr) (a len : Word) :
    TxFields (m.storeFields d (sendFields a len)) d a (txDataLen len) txTypeByte txCommandByte (txPacked len) := by
  apply m.txFields_storeFields d (sendFields_apart a len) (sendFields_fits a len) <;> simp [sendFields]

/-- The second word is composed of the four fields behind the address (R70, R117). -/
theorem TxFields.second_word {m : Memory} {d : Addr} {addr dataLen typeByte command packed : Word}
    (h : TxFields m d addr dataLen typeByte command packed) :
    m.load (d + 8#64) 8 = dataLen ||| (typeByte <<< 16) ||| (command <<< 24) ||| (packed <<< 32) := by
  obtain ⟨-, composed⟩ := memoryIsLittleEndian.2
  rw [composed, h.dataLen, h.typeByte, h.command, h.packed]

theorem sentWord_eq_fields (len : Word) :
    txDataLen len ||| (txTypeByte <<< 16) ||| (txCommandByte <<< 24) ||| (txPacked len <<< 32) = sentWord len := by
  have dataLen : txDataLen len = len &&& 0xFFFF#64 := bits_low_eq_mask len 15
  have bytes : (txTypeByte <<< 16) ||| (txCommandByte <<< 24) = 0x2B300000#64 := by decide
  rw [dataLen, txPacked_shiftLeft, BitVec.or_assoc (len &&& _), bytes, sentWord, BitVec.or_comm, BitVec.or_comm (len &&& _),
    BitVec.or_assoc]

/-! ## Writing operations (R161, R162) -/

/-- Settles O9: the accesses behind the preamble change nothing of the block, and with no device step in between they are the stores of
the fields, which compose to the words of R117. -/
theorem txdWritesDescriptor : Obligations.TxdWritesDescriptor := by
  refine ⟨codecRefusals_of_exec fun _ _ => rfl, codecRefusals_of_exec fun _ _ => rfl, fun q s ready => ⟨?init, ?send⟩⟩
  case init =>
    refine ⟨_, codec_ready ready _, (s.txInit_envChange _).onlyMemory, fun quiet => ?_⟩
    obtain ⟨mem, only⟩ := State.ok_of_mem (State.txInit_quiet quiet (txdOf q s))
    have fields := s.mem.txFields_initFields (txdOf q s)
    refine ⟨only, ?_⟩
    rw [mem]
    exact ⟨fields.addr, fields.second_word, s.mem.storeFields_kept _ initFields_fits⟩
  case send =>
    refine ⟨_, codec_ready ready _, (s.txSend_envChange _ _ _).onlyMemory, fun quiet => ?_⟩
    obtain ⟨mem, only⟩ := State.ok_of_mem (State.txSend_quiet quiet (txdOf q s) s.a1 s.a2)
    have fields := s.mem.txFields_sendFields (txdOf q s) s.a1 s.a2
    refine ⟨only, ?_⟩
    rw [mem]
    exact ⟨fields.addr, fields.second_word.trans (sentWord_eq_fields s.a2), s.mem.storeFields_kept _ (sendFields_fits _ _)⟩

/-! ## Reading operations (R163 to R167) -/

theorem codecRead_of_txReadField {make : Nat → Instr} {off : Addr} {n : Nat} {f g : Word → Word}
    (run : ∀ q s, exec (make q) s = .next (txReadField q off n g s)) (field : ∀ w, g w = f w) : CodecRead make txd off n f := by
  obtain rfl : g = f := funext field
  exact codecRead_of_exec run

theorem codecRead_txdPolldd : CodecRead .txdPolldd txd 12#64 4 (fun p => p &&& 1#64) :=
  codecRead_of_txReadField (fun _ _ => rfl) fun p => (boolWord_getLsbD p 0).trans (by rw [BitVec.ushiftRight_zero])

theorem codecRead_txdGetaddr : CodecRead .txdGetaddr txd 0#64 8 (fun w => w) :=
  codecRead_of_txReadField (fun _ _ => rfl) fun _ => rfl

theorem codecRead_txdGetlen : CodecRead .txdGetlen txd 8#64 2 (fun w => w) :=
  codecRead_of_txReadField (fun _ _ => rfl) fun _ => rfl

theorem codecRead_txdGetpaylen : CodecRead .txdGetpaylen txd 12#64 4 (fun p => (p >>> 14) &&& 0x3FFFF#64) :=
  codecRead_of_txReadField (fun _ _ => rfl) fun p => bits_eq_shift_and_mask p 31 14

/-- Settles O10: each operation is one read behind the preamble, with the bits of R163 and R165 to R167 of what it read. -/
theorem txdReadsDescriptor : Obligations.TxdReadsDescriptor :=
  ⟨codecRead_txdPolldd, codecRead_txdGetaddr, codecRead_txdGetlen, codecRead_txdGetpaylen⟩

/-- Settles O11: behind the preamble the one read decides between the end with OK and going on. -/
theorem txdWaitReadsUntilDone : Obligations.TxdWaitReadsUntilDone := by
  refine ⟨codecRefusals_of_exec fun _ _ => rfl, fun q s ready => ?_⟩
  have run : exec (.txdWaitdd q) s = .next (if txDone (s.envTurn.mem.load (txd s.cfg q s.a0.toNat + 12#64) 4)
      then s.envTurn.ok else { s.envTurn with phase := .running }) := codec_ready ready _
  rw [run, State.afterTurn_eq]
  refine ⟨fun done => ?_, fun waiting => ?_, fun quiet x => by rw [State.envTurn_quiet quiet]⟩
  · rw [txDone, if_pos done]; rfl
  · rw [txDone, if_neg (by rw [waiting]; exact nofun)]

/-! ## Round trip (R168) -/

/-- A reading operation with no device step before its read. -/
theorem CodecRead.exec_quiet {make : Nat → Instr} {base : Params → Nat → Nat → Addr} {off : Addr} {n : Nat} {f : Word → Word}
    (read : CodecRead make base off n f) {q : Nat} {s : State} (ready : codecReady q s) (quiet : s.quiet) :
    exec (make q) s = .next { s with v0 := f (s.mem.load (base s.cfg q s.a0.toNat + off) n), st := 0#8 } := by
  obtain ⟨run, -⟩ := read.2 q s ready
  rw [run, State.afterTurn_quiet quiet, State.envTurn_quiet quiet]

/-- `PAYLEN` lies above the status nibble: a packed word that agrees with the sent one in bits 31:4 gives the length (R105, R109). -/
theorem paylen_of_shiftRight_eq {p len : Word} (h : p >>> 4 = txPacked len >>> 4) : (p >>> 14) &&& 0x3FFFF#64 = len &&& 0x3FFFF#64 := by
  have above : p >>> 14 = txPacked len >>> 14 := by
    rw [show 14 = 4 + 10 from rfl, BitVec.shiftRight_add, BitVec.shiftRight_add, h]
  rw [above]
  exact (bits_eq_shift_and_mask (txPacked len) 31 14).symm.trans (txPaylen_txPacked len)

/-- Settles O12: the kept fields are the ones `TXD.SEND` stored, so each reading operation gives the operand back as the field holds
it, and a length of 16 bits fits both fields. -/
theorem txdRoundTrip : Obligations.TxdRoundTrip := by
  intro q s ready quiet
  refine ⟨_, codec_ready ready _, fun u cfg running quietLater index addr dataLen packed => ?_⟩
  have readyLater : codecReady q u := by
    obtain ⟨-, queue, slot⟩ := ready
    exact ⟨running, cfg ▸ queue, cfg ▸ index ▸ slot⟩
  obtain ⟨mem, -⟩ := State.ok_of_mem (State.txSend_quiet quiet (txdOf q s) s.a1 s.a2)
  have fields : TxFields (s.mem.storeFields (txdOf q s) (sendFields s.a1 s.a2)) (txd s.cfg q s.a0.toNat) _ _ _ _ _ :=
    s.mem.txFields_sendFields (txdOf q s) s.a1 s.a2
  have len16 : txDataLen s.a2 = s.a2 &&& 0xFFFF#64 := bits_low_eq_mask s.a2 15
  rw [mem, fields.addr] at addr
  rw [mem, fields.dataLen, len16] at dataLen
  rw [mem, fields.packed] at packed
  have paylen := paylen_of_shiftRight_eq packed
  refine ⟨?getaddr, ?getlen, ?getpaylen, fun short => ?exact⟩
  case getaddr => rw [codecRead_txdGetaddr.exec_quiet readyLater quietLater, cfg, index, BitVec.add_zero, addr]
  case getlen => rw [codecRead_txdGetlen.exec_quiet readyLater quietLater, cfg, index, dataLen]
  case getpaylen => rw [codecRead_txdGetpaylen.exec_quiet readyLater quietLater, cfg, index, paylen]
  case exact =>
    have fits16 : s.a2 &&& 0xFFFF#64 = s.a2 := and_mask_of_lt (n := 16) (by decide) (by omega)
    have fits18 : s.a2 &&& 0x3FFFF#64 = s.a2 := and_mask_of_lt (n := 18) (by decide) (by omega)
    exact ⟨fits16, fits18, by rw [and_paylen_mask, paylen, fits18]⟩

end Sys2Proof.Machine
end

section
/-! A handle goes back once (R183): an operation that has taken a handle with OK leaves its entry with the pool or the hardware, and every
latch its preamble looks at as it was, so that the second issue reaches the handle check and fails it. -/

namespace Sys2Proof.Machine

/-! ## A handle that is taken -/

/-- `t` is what an operation leaves of `s` when it ends with OK and has taken the handle in the operand registers: the handle's entry is no
longer lent to the host; operands, latches, configuration and the pool's sizes are as before. -/
structure Spends (s t : State) : Prop where
  spent : ∃ i, s.reclaim s.handleIn = some i ∧ (t.entry i).tag ≠ .swStack
  same : t = { s with
    queues := t.queues, pool := { s.pool with ent := t.pool.ent }, token := t.token, mem := t.mem, nic := t.nic
    transport := t.transport, env := t.env, st := 0#8 }

/-- Taking a handle: its entry's record changes, the rings and the transport as they like, and the world around as it may. -/
theorem Spends.of_setEnt {s u t : State} {i : Nat} {f : Entry → Entry} (accepted : s.reclaim s.handleIn = some i)
    (around : EnvChange s u) (leaves : ∀ e, (f e).tag ≠ .swStack)
    (same : t = { u.setEnt i f with queues := t.queues, token := t.token, transport := t.transport, st := 0#8 }) : Spends s t where
  spent := by
    obtain ⟨-, -, lent, -⟩ := State.reclaim_some accepted
    have inPool : i < u.pool.ent.length := by
      rw [around.pool]
      exact State.lt_of_tag_eq lent nofun
    have entry : t.entry i = (u.setEnt i f).entry i := by rw [same]; rfl
    refine ⟨i, accepted, ?_⟩
    rw [entry, State.entry_setEnt_self inPool]
    exact leaves _
  same := by
    rw [same, around.same]
    rfl

/-- A handle that has been taken is accepted no more (R183, fourth check). -/
theorem Spends.reclaim_none {s t : State} (h : Spends s t) : t.reclaim t.handleIn = none := by
  obtain ⟨i, accepted, left⟩ := h.spent
  obtain ⟨-, -, -, -, -, index, -⟩ := State.reclaim_some accepted
  have sameIndex : (t.handleIn.entry - t.cfg.poolVBase).toNat / t.pool.esz.toNat = i := by
    rw [index, h.same]
    rfl
  exact State.reclaim_none_of_tag (by rw [sameIndex]; exact left)

theorem Spends.halted {s t : State} (h : Spends s t) : t.halted = s.halted := by rw [h.same]
theorem Spends.cfg {s t : State} (h : Spends s t) : t.cfg = s.cfg := by rw [h.same]
theorem Spends.inited {s t : State} (h : Spends s t) : t.inited = s.inited := by rw [h.same]

/-- What an operation that takes a handle does behind its preamble: without an accepted handle it halts with HANDLE, and with OK the handle
is spent. -/
structure TakesHandle (own : State → State) : Prop where
  refuses {s : State} : s.reclaim s.handleIn = none → own s = s.raise .handle
  spends {s : State} : (own s).st = 0#8 → Spends s (own s)

/-- An operation of a running block that, issued again at once after it has ended with OK, halts the block with HANDLE. -/
def SpendsOnce (op : State → Result) : Prop :=
  ∀ s t, s.halted = false → op s = .next t → t.st = 0#8 → Spends s t ∧ op t = .next (t.raise .handle)

/-- Behind a preamble that the state still passes, the second issue reaches the handle check. -/
theorem TakesHandle.spendsOnce {own : State → State} {check : State → Option State} (takes : TakesHandle own)
    (stops : ∀ {s : State}, s.halted = false → Stops s (check s))
    (passes : ∀ {s t : State}, check s = none → Spends s t → check t = none) :
    SpendsOnce fun s => .next ((check s).getD (own s)) := by
  intro s t hs first ok
  obtain rfl := Host.Outcome.next.inj first
  have passed := (stops hs).passed ok
  rw [passed, Option.getD_none] at ok ⊢
  have spent := takes.spends ok
  exact ⟨spent, by simp only [passes passed spent, Option.getD_none, takes.refuses spent.reclaim_none]⟩

/-! ## What takes a handle -/

/-- `POOL.FREE` and `CR.RXRECYCLE` (R184, R206). -/
theorem takesHandle_reclaimAndRelease : TakesHandle reclaimAndRelease where
  refuses h := by rw [reclaimAndRelease, h]
  spends {s} ok := by
    unfold reclaimAndRelease at ok ⊢
    split at ok
    · exact absurd ok raise_st_ne
    next i accepted => exact .of_setEnt accepted (.refl s) (fun _ => by simp) rfl

/-- `CR.TX` after its preamble (R208). -/
def crTxOwn (q : Nat) (s : State) : State :=
  match s.reclaim s.handleIn with
  | none => s.raise .handle
  | some i => crTxBody q i s

theorem execCrTx_eq (q : Nat) (s : State) : execCrTx q s = .next ((crQueueCheck q s).getD (crTxOwn q s)) := rfl

theorem takesHandle_crTxOwn (q : Nat) : TakesHandle (crTxOwn q) where
  refuses h := by rw [crTxOwn, h]
  spends {s} ok := by
    unfold crTxOwn at ok ⊢
    split at ok
    · exact absurd ok raise_st_ne
    next i accepted =>
    simp only [crTxBody] at ok ⊢
    split at ok
    · exact absurd ok (finish_st_ne nofun)
    next room =>
    rw [if_neg room]
    have sent := s.txSend_envChange (txd s.cfg q (s.queue q).txIndex.toNat) (s.physOf i + (s.entry i).hdrLen) (s.entry i).pktLen
    generalize s.txSend _ _ _ = u at sent ⊢
    exact .of_setEnt (f := fun e => { e with wire := none, tag := .hw }) accepted sent (fun _ => by simp) rfl

/-- `TR.RXRECYCLE` (R234). -/
theorem takesHandle_trRxrecycleBody : TakesHandle trRxrecycleBody where
  refuses h := by rw [trRxrecycleBody, h]
  spends {s} ok := by
    unfold trRxrecycleBody at ok ⊢
    split at ok
    · exact absurd ok raise_st_ne
    next i accepted =>
    obtain ⟨u, around, ⟨full, after⟩ | ⟨tok, begun, after⟩⟩ :=
      s.receiveBegin_setEnt i (fun e => { e with hdrLen := 0#64, pktLen := 0#64, wire := none, tag := .hw })
    · simp only [full] at ok
      exact absurd ok raise_st_ne
    · simp only [begun, after] at ok ⊢
      split at ok
      · exact absurd ok raise_st_ne
      split at ok
      · exact absurd ok raise_st_ne
      next inRing empty =>
      rw [if_neg inRing, if_neg empty]
      exact .of_setEnt accepted around (fun _ => by simp) rfl

/-- `TR.TX` (R236). -/
theorem takesHandle_trTxBody : TakesHandle trTxBody where
  refuses h := by rw [trTxBody, h]
  spends {s} ok := by
    unfold trTxBody at ok ⊢
    split at ok
    · exact absurd ok raise_st_ne
    next i accepted =>
    have turn : EnvChange s s.canSend.2 := s.envTurn_envChange
    dsimp only at ok ⊢
    split at ok
    · exact absurd ok (finish_st_ne nofun)
    next room =>
    rw [if_neg room]
    obtain ⟨u, around, ⟨full, after⟩ | ⟨tok, begun, after⟩⟩ := s.canSend.2.transmitBegin_setEnt i
      ((s.entry i).hdrLen.toNat + (s.entry i).pktLen.toNat) (fun e => { e with wire := none, tag := .hw })
    · simp only [full] at ok
      exact absurd ok raise_st_ne
    · simp only [begun, after] at ok ⊢
      split at ok
      · exact absurd ok raise_st_ne
      split at ok
      · exact absurd ok raise_st_ne
      next inRing empty =>
      rw [if_neg inRing, if_neg empty]
      exact .of_setEnt accepted (turn.trans around) (fun _ => by simp) rfl

/-! ## The operations -/

theorem spendsOnce_poolFree : SpendsOnce execPoolFree :=
  takesHandle_reclaimAndRelease.spendsOnce stops_haltCheck fun passed spent => by
    rw [haltCheck] at passed ⊢
    rw [spent.halted]
    split at passed
    · cases passed
    next running => exact if_neg running

theorem spendsOnce_crRxrecycle : SpendsOnce execCrRxrecycle :=
  takesHandle_reclaimAndRelease.spendsOnce stops_crCheck fun passed spent => by
    rw [crCheck_none] at passed ⊢
    rwa [spent.halted, spent.cfg, spent.inited]

theorem spendsOnce_crTx (q : Nat) : SpendsOnce (execCrTx q) := by
  rw [funext (execCrTx_eq q)]
  refine (takesHandle_crTxOwn q).spendsOnce (fun hs => stops_crQueueCheck hs q) fun passed spent => ?_
  rw [crQueueCheck_none] at passed ⊢
  rwa [spent.halted, spent.cfg, spent.inited]

theorem trCheck_of_spends {s t : State} (passed : trCheck s = none) (spent : Spends s t) : trCheck t = none := by
  rw [trCheck_none] at passed ⊢
  rwa [spent.halted, spent.cfg, spent.inited]

theorem spendsOnce_trRxrecycle : SpendsOnce execTrRxrecycle :=
  takesHandle_trRxrecycleBody.spendsOnce stops_trCheck trCheck_of_spends

theorem spendsOnce_trTx : SpendsOnce execTrTx := takesHandle_trTxBody.spendsOnce stops_trCheck trCheck_of_spends

/-- The contract on a running block of the classic family (R260). -/
theorem byFamily_classic {s : State} (hs : s.halted = false) (family : s.cfg.family = .classic) (classic token : State → Result) :
    byFamily classic token s = classic s := by
  simp only [byFamily, haltCheck_running hs, family]

/-- The contract on a running block of the token family (R260). -/
theorem byFamily_token {s : State} (hs : s.halted = false) (family : s.cfg.family = .token) (classic token : State → Result) :
    byFamily classic token s = token s := by
  simp only [byFamily, haltCheck_running hs, family]

theorem SpendsOnce.byFamily {classic token : State → Result} (hc : SpendsOnce classic) (ht : SpendsOnce token) :
    SpendsOnce (byFamily classic token) := by
  intro s t hs first ok
  cases family : s.cfg.family with
  | classic =>
    rw [byFamily_classic hs family] at first
    obtain ⟨spent, again⟩ := hc s t hs first ok
    exact ⟨spent, by rwa [byFamily_classic (spent.halted.trans hs) (spent.cfg ▸ family)]⟩
  | token =>
    rw [byFamily_token hs family] at first
    obtain ⟨spent, again⟩ := ht s t hs first ok
    exact ⟨spent, by rwa [byFamily_token (spent.halted.trans hs) (spent.cfg ▸ family)]⟩

/-- The gates of the queued contract operations where the family is token (R308 items 5 and 6). -/
theorem tokenGates_none (q : Nat) (s : State) : (initedCheck s <|> queueCheck q s) = none ↔ s.inited = true ∧ q < QN s.cfg := by
  unfold initedCheck queueCheck
  cases s.inited <;> simp

theorem SpendsOnce.byFamilyQueued (q : Nat) {classic token : State → Result} (hc : SpendsOnce classic) (ht : SpendsOnce token) :
    SpendsOnce (byFamilyQueued q classic token) := by
  refine hc.byFamily fun s t hs first ok => ?_
  cases gates : (initedCheck s <|> queueCheck q s) with
  | some u =>
    rw [gates] at first
    obtain rfl := Host.Outcome.next.inj first
    exact absurd ok (((stops_initedCheck s).orElse (stops_queueCheck q s)) u gates).2
  | none =>
    rw [gates] at first
    obtain ⟨spent, again⟩ := ht s t hs first ok
    refine ⟨spent, ?_⟩
    have open' : (initedCheck t <|> queueCheck q t) = none := by
      rw [tokenGates_none] at gates ⊢
      rwa [spent.inited, spent.cfg]
    rw [open']
    exact again

/-- An operation that ends with OK began in a running block (R309). -/
theorem running_of_ok {i : Instr} (hi : i ≠ .sysReset) {s t : State} (h : exec i s = .next t) (ok : t.st = 0#8) : s.halted = false := by
  by_contra halted
  obtain rfl := Host.Outcome.next.inj ((exec_halted (by simpa using halted) hi).symm.trans h)
  exact finish_st_ne (k := .badState) nofun ok

/-- The operations that take a handle (R184, R206, R208, R234, R236 and their forms in the contract). -/
def handleTakers (q : Nat) : List Instr := [.poolFree, .crRxrecycle, .crTx q, .trRxrecycle, .trTx, .devRxrecycle, .devTx q]

theorem handleTakers_spendOnce {q : Nat} {op : Instr} (hop : op ∈ handleTakers q) : op ≠ .sysReset ∧ SpendsOnce (exec op) := by
  simp only [handleTakers, List.mem_cons, List.not_mem_nil, or_false] at hop
  rcases hop with rfl | rfl | rfl | rfl | rfl | rfl | rfl
  · exact ⟨nofun, spendsOnce_poolFree⟩
  · exact ⟨nofun, spendsOnce_crRxrecycle⟩
  · exact ⟨nofun, spendsOnce_crTx q⟩
  · exact ⟨nofun, spendsOnce_trRxrecycle⟩
  · exact ⟨nofun, spendsOnce_trTx⟩
  · exact ⟨nofun, spendsOnce_crRxrecycle.byFamily spendsOnce_trRxrecycle⟩
  · exact ⟨nofun, (spendsOnce_crTx q).byFamilyQueued q spendsOnce_trTx⟩

/-- Settles O17: whatever took the handle with OK left its entry no longer lent and every latch as it was, so the second issue passes the
preamble and fails the handle check. -/
theorem handleDiesWhenGivenBack : Obligations.HandleDiesWhenGivenBack := by
  intro q s t op hop first ok
  obtain ⟨notReset, spendsOnce⟩ := handleTakers_spendOnce hop
  obtain ⟨-, again⟩ := spendsOnce s t (running_of_ok notReset first ok) first ok
  exact again

end Sys2Proof.Machine
end

section
/-! The Buffer Pool (spec/42_pool.md): which handles are accepted, and what each of its operations answers and leaves unchanged. -/

namespace Sys2Proof.Machine

/-! ## Which handles are accepted (R183, R35) -/

/-- The pointer of an entry in a pool that does not wrap is not below the base, and is as far from it as the entry's offset (R14). -/
theorem State.ptrOf_offset {s : State} {i : Nat} (fits : s.cfg.poolVBase.toNat + i * s.pool.esz.toNat < 2 ^ 64) :
    s.cfg.poolVBase ≤ s.ptrOf i ∧ (s.ptrOf i - s.cfg.poolVBase).toNat = i * s.pool.esz.toNat := by
  have offset : (BitVec.ofNat 64 (i * s.pool.esz.toNat)).toNat = i * s.pool.esz.toNat := by
    rw [BitVec.toNat_ofNat, Nat.mod_eq_of_lt (by omega)]
  constructor
  · rw [BitVec.le_def, State.ptrOf, ptr, BitVec.toNat_add, offset, Nat.mod_eq_of_lt fits]
    omega
  · rw [State.ptrOf, ptr, BitVec.add_comm, BitVec.add_sub_cancel, offset]

/-- A handle that points at an entry of the pool and is recorded with it is accepted (R183, every check in its order). -/
theorem State.reclaim_of_checks {s : State} {h : Handle} {i : Nat} (hasPool : s.pool.present = true) (base : s.cfg.poolVBase ≤ h.entry)
    (offset : (h.entry - s.cfg.poolVBase).toNat = i * s.pool.esz.toNat) (sized : 0 < s.pool.esz.toNat) (inPool : i < s.pool.n.toNat)
    (tag : (s.entry i).tag = .swStack) (wire : (s.entry i).wire = some h) : s.reclaim h = some i := by
  have aligned : (h.entry - s.cfg.poolVBase).toNat % s.pool.esz.toNat = 0 := by rw [offset, Nat.mul_mod_left]
  have index : (h.entry - s.cfg.poolVBase).toNat / s.pool.esz.toNat = i := by rw [offset, Nat.mul_div_cancel _ sized]
  simp only [State.reclaim, hasPool, BitVec.not_lt.mpr base, aligned, index, Nat.not_le.mpr inPool, tag, wire, ne_eq,
    not_true_eq_false, reduceCtorEq, if_false]

/-- A pool with an entry has no entries of size 0 (R181). -/
theorem State.esz_pos {s : State} (sizes : s.sizesOk) {i : Nat} (inPool : i < s.pool.n.toNat) : 0 < s.pool.esz.toNat := by
  obtain ⟨-, -, -, -, -, -, -, -, nonzero, -⟩ := sizes
  refine Nat.pos_of_ne_zero fun zero => nonzero (fun n => ?_) (BitVec.eq_of_toNat_eq zero)
  rw [n] at inPool
  exact absurd inPool (Nat.not_lt_zero i)

/-- In the invariant the accepted handles are the lent ones. -/
theorem State.Inv.reclaim_iff {s : State} (inv : s.Inv) {h : Handle} {i : Nat} :
    s.reclaim h = some i ↔ s.pool.present = true ∧ s.lent i h := by
  obtain ⟨-, -, -, -, -, -, entries, -⟩ := inv.sizes
  constructor
  · intro accepted
    obtain ⟨hasPool, inPool, tag, wire, -⟩ := State.reclaim_some accepted
    exact ⟨hasPool, entries ▸ inPool, tag, wire⟩
  · rintro ⟨hasPool, isEntry, tag, wire⟩
    have inPool : i < s.pool.n.toNat := entries ▸ isEntry
    have sized := State.esz_pos inv.sizes inPool
    have fits : s.cfg.poolVBase.toNat + i * s.pool.esz.toNat < 2 ^ 64 := by
      obtain ⟨-, noWrap, -⟩ := (poolRoom_iff _ _).mp inv.placed
      have below := Nat.mul_lt_mul_of_pos_right inPool sized
      omega
    have pointer : h.entry = s.ptrOf i := by
      obtain ⟨recorded, -⟩ := (inv.wires i isEntry).1 tag
      rw [wire] at recorded
      exact congrArg Handle.entry (Option.some.inj recorded)
    obtain ⟨base, offset⟩ := State.ptrOf_offset fits
    rw [← pointer] at base offset
    exact State.reclaim_of_checks hasPool base offset sized inPool tag wire

/-- Settles O15: the pointer of a lent entry gives back its index, since the pool does not wrap, and its record holds the handle. -/
theorem reclaimAcceptsLentHandles : Obligations.ReclaimAcceptsLentHandles := fun _ _ _ inv => inv.reclaim_iff

/-! ## Giving a handle back (R184, R206) -/

/-- Changing the record of an entry of the pool, as an assignment to one place. -/
theorem State.setEnt_eq_set {s : State} {i : Nat} (inPool : i < s.pool.ent.length) (f : Entry → Entry) :
    s.setEnt i f = { s with pool := { s.pool with ent := s.pool.ent.set i (f (s.entry i)) } } := by
  have record : s.pool.ent.get ⟨i, inPool⟩ = s.entry i := by simp [State.entry, inPool]
  rw [State.setEnt, List.modify_eq_set_get f inPool, record]

/-- The classic operations without a queue behind their preamble (R200). -/
theorem crCheck_ready {s : State} (ready : classicReady s) : crCheck s = none := (crCheck_none s).mpr ready

/-- On a running block that the operation is for, each of the three is `reclaimAndRelease`. -/
theorem exec_giveBack {s : State} (hs : s.halted = false) {op : Instr} (hop : op ∈ [Instr.poolFree, .crRxrecycle, .devRxrecycle])
    (can : op = .poolFree ∨ (s.cfg.family = .classic ∧ s.inited = true)) : exec op s = .next (reclaimAndRelease s) := by
  simp only [List.mem_cons, List.not_mem_nil, or_false] at hop
  rcases hop with rfl | rfl | rfl
  case inl => simp only [exec, execPoolFree, haltCheck_running hs, Option.getD_none]
  all_goals obtain ⟨family, open'⟩ := can.resolve_left nofun
  · simp only [exec, execCrRxrecycle, crCheck_ready ⟨hs, family, open'⟩, Option.getD_none]
  · simp only [exec, execDevRxrecycle, byFamily_classic hs family, execCrRxrecycle, crCheck_ready ⟨hs, family, open'⟩, Option.getD_none]

/-- Settles O16: a lent handle is accepted and its entry released, and no other is accepted. -/
theorem giveBackReturnsEntry : Obligations.GiveBackReturnsEntry := by
  intro s inv hs op hop can
  rw [exec_giveBack hs hop can]
  refine ⟨fun i hasPool lent => ?_, fun noneLent => ?_⟩
  · have inPool : i < s.pool.ent.length := lent.1
    rw [reclaimAndRelease, inv.reclaim_iff.mpr ⟨hasPool, lent⟩]
    dsimp only
    rw [State.release, State.setEnt_eq_set inPool]
    rfl
  · have refused : s.reclaim s.handleIn = none :=
      Option.eq_none_iff_forall_ne_some.mpr fun i accepted => noneLent i (inv.reclaim_iff.mp accepted).2
    rw [takesHandle_reclaimAndRelease.refuses refused]
    rfl

/-! ## Leasing (R182, R187, R188) -/

theorem Pool.freeEntries_eq_nil {p : Pool} : p.freeEntries = [] ↔ ∀ i < p.ent.length, (p.ent.getD i {}).tag ≠ .free := by
  simp only [List.eq_nil_iff_forall_not_mem, Pool.mem_freeEntries, not_and, ne_eq]

/-- With `PICK` = least index no free entry is before the one leased (R6, R187). -/
theorem State.lease_least {s : State} {i : Nat} (lease : s.lease = some i) (least : s.cfg.pick = .least) :
    ∀ j < i, (s.entry j).tag ≠ .free := by
  unfold State.lease at lease
  split at lease
  · rw [least, pickFrom, Pool.freeEntries, List.head?_filter, List.find?_range_eq_some] at lease
    obtain ⟨-, -, before⟩ := lease
    intro j hj free
    have := before j hj
    simp_all [State.entry]
  · cases lease

/-- Lending a free entry with an empty header is what `POOL.ALLOC` and `CR.TXALLOC` do where they can (R188). -/
theorem leaseAndEmit_lendsFree {s : State} {i : Nat} (lease : s.lease = some i) : s.lendsFree (leaseAndEmit s) s.a0 := by
  obtain ⟨-, inPool, free⟩ := State.lease_some lease
  refine ⟨i, inPool, free, State.lease_least lease, ?_⟩
  rw [leaseAndEmit, lease]
  dsimp only
  rw [State.emit, State.setEnt_eq_set inPool]
  simp only [State.handleOf, BitVec.add_zero]
  rfl

theorem leaseAndEmit_nomem {s : State} (lease : s.lease = none) : leaseAndEmit s = s.finish .nomem := by rw [leaseAndEmit, lease]

/-- Settles O14: the size check, then the lease, by whether there is a free entry. -/
theorem poolAllocLendsFreeEntry : Obligations.PoolAllocLendsFreeEntry := by
  intro s
  refine ⟨fun halted => exec_halted halted nofun, fun hs => ?_⟩
  have run : exec .poolAlloc s =
      .next (if s.pool.present = true ∧ s.pool.esz.toNat < s.a0.toNat then s.finish .inval else leaseAndEmit s) := by
    simp only [exec, execPoolAlloc, haltCheck_running hs, Option.getD_none]
  refine ⟨fun hasPool large => ?_, fun absent => ?_, fun hasPool fits => ?_⟩
  · rw [run, if_pos ⟨hasPool, large⟩]; rfl
  · rw [run, if_neg (by simp [absent]), leaseAndEmit_nomem (State.lease_none.mpr (Or.inl absent))]; rfl
  rw [run, if_neg (by omega)]
  refine ⟨fun noneFree => ?_, fun ⟨i, inPool, free⟩ => ?_⟩
  · rw [leaseAndEmit_nomem (State.lease_none.mpr (Or.inr (Pool.freeEntries_eq_nil.mpr noneFree)))]; rfl
  · cases lease : s.lease with
    | some j => exact ⟨_, rfl, leaseAndEmit_lendsFree lease⟩
    | none =>
      rcases State.lease_none.mp lease with absent | noneFree
      · rw [hasPool] at absent; cases absent
      · exact absurd free (Pool.freeEntries_eq_nil.mp noneFree i inPool)

/-! ## The counts (R186, R37) -/

/-- Entries with one of two tags, counted apart. -/
theorem countP_tag_or {x y : Tag} (h : x ≠ y) (l : List Entry) :
    l.countP (fun e => e.tag = x ∨ e.tag = y) = l.countP (fun e => e.tag = x) + l.countP (fun e => e.tag = y) := by
  induction l with
  | nil => rfl
  | cons e l ih =>
    simp only [List.countP_cons, ih, decide_eq_true_eq]
    by_cases hx : e.tag = x
    · simp only [hx, h, true_or, if_true, if_false]
      omega
    · simp only [hx, false_or, if_false]
      omega

/-- Every entry has one of the four tags (R36). -/
theorem Pool.count_total (p : Pool) : p.count .free + (p.count .swDriver + p.count .swStack) + p.count .hw = p.ent.length := by
  unfold Pool.count
  induction p.ent with
  | nil => rfl
  | cons e l ih =>
    simp only [List.countP_cons, List.length_cons, decide_eq_true_eq]
    cases e.tag <;> simp only [reduceCtorEq, if_true, if_false] <;> omega

/-- Settles O19: there are fewer than 2^64 entries, so no count is cut. -/
theorem poolStatConserves : Obligations.PoolStatConserves := by
  intro s
  refine ⟨fun halted => exec_halted halted nofun, fun hs absent => ?_, fun hs hasPool entries => ?_⟩
  · simp only [exec, execPoolStat, haltCheck_running hs, Option.getD_none, absent]; rfl
  have total := s.pool.count_total
  have fits : s.pool.n.toNat < 2 ^ 32 := s.pool.n.isLt
  have exact : ∀ k ≤ s.pool.n.toNat, (BitVec.ofNat 64 k).toNat = k := fun k hk => by
    rw [BitVec.toNat_ofNat, Nat.mod_eq_of_lt (by omega)]
  have free := exact (s.pool.count .free) (by omega)
  have software := exact (s.pool.count .swDriver + s.pool.count .swStack) (by omega)
  have hardware := exact (s.pool.count .hw) (by omega)
  have run : exec .poolStat s = .next (s.ok3 (BitVec.ofNat 64 (s.pool.count .free))
      (BitVec.ofNat 64 (s.pool.count .swDriver + s.pool.count .swStack)) (BitVec.ofNat 64 (s.pool.count .hw))) := by
    simp only [exec, execPoolStat, haltCheck_running hs, Option.getD_none, hasPool, if_true]
  refine ⟨_, run, rfl, free, ?_, hardware, ?_⟩
  · exact software.trans (countP_tag_or (x := .swDriver) (y := .swStack) nofun s.pool.ent).symm
  · simp only [State.ok3_v0, State.ok3_v1, State.ok3_v2, free, software, hardware]
    omega

/-! ## Creating the pool (R181, R51) -/

/-- What a run of bytes leaves at each address from its start on: the listed byte, or the byte that was there. -/
theorem Memory.get_storeBytes (m : Memory) (a : Addr) {bs : List Byte} (hbs : bs.length ≤ 2 ^ 64) {k : Nat} (hk : k < 2 ^ 64) :
    (m.storeBytes a bs).get (a + BitVec.ofNat 64 k).toNat = listedOr bs k (m.get (a + BitVec.ofNat 64 k).toNat) := by
  induction bs generalizing m a k with
  | nil => rfl
  | cons b bs ih =>
    rw [List.length_cons] at hbs
    rw [Memory.storeBytes]
    cases k with
    | zero =>
      -- the rest of the run ends before it comes round to `a`, which it meets one lap on
      have next := ih (m.put a.toNat b) (a + 1#64) (k := 2 ^ 64 - 1) (by omega) (by omega)
      have wraps : a + 1#64 + BitVec.ofNat 64 (2 ^ 64 - 1) = a := by bv_omega
      have unlisted : bs[2 ^ 64 - 1]? = none := List.getElem?_eq_none (by omega)
      rw [wraps, listedOr, unlisted] at next
      simpa [listedOr] using next
    | succ k =>
      have address : a + BitVec.ofNat 64 (k + 1) = a + 1#64 + BitVec.ofNat 64 k := by
        rw [BitVec.add_assoc, Nat.add_comm, BitVec.ofNat_add]
      have other : (a + BitVec.ofNat 64 (k + 1)).toNat ≠ a.toNat := fun e =>
        addr_add_ne k.succ_pos hk le_rfl (BitVec.eq_of_toNat_eq e)
      have untouched := Memory.get_put_ne m b other
      rw [address] at untouched ⊢
      rw [ih _ _ (by omega) (by omega), untouched]
      rfl

theorem Memory.bytesKept_storeBytes (m : Memory) (a : Addr) (bs : List Byte) : bytesKept m (m.storeBytes a bs) (inBytes a bs.length) := by
  induction bs generalizing m a with
  | nil => exact fun _ _ => rfl
  | cons b bs ih =>
    intro x outside
    have later : ¬ inBytes (a + 1#64) bs.length x := fun h => outside (h.of_offset (j := 1) (by rw [List.length_cons]; omega))
    have here : x ≠ a.toNat := fun e => outside ⟨0, Nat.succ_pos _, by simpa using e⟩
    rw [Memory.storeBytes, ih _ _ x later, Memory.get_put_ne _ _ here]

/-- The contents drawn for a new pool (R51), byte by byte. -/
theorem State.drawContents_get (s : State) {bytes k : Nat} (fits : bytes ≤ 2 ^ 64) (hk : k < bytes) :
    (s.drawContents bytes).mem.get (s.cfg.poolPBase + BitVec.ofNat 64 k).toNat = s.freshByte k := by
  have short : ((s.env.contents.headD []).take bytes).length ≤ 2 ^ 64 := (List.length_take_le _ _).trans fits
  rw [State.drawContents_mem, Memory.get_storeBytes _ _ short (hk.trans_le fits), State.freshByte, listedOr, listedOr,
    List.getElem?_take_of_lt hk]

theorem State.bytesKept_drawContents (s : State) (bytes : Nat) :
    bytesKept s.mem (s.drawContents bytes).mem (inBytes s.cfg.poolPBase bytes) :=
  (Memory.bytesKept_storeBytes _ _ _).mono fun _ h => h.mono (List.length_take_le _ _)

/-- A pool that has its place covers no byte of a ring (R76). -/
theorem not_inBytes_of_ring {p : Params} {bytes : Nat} (room : poolRoom p bytes = true) {b : Addr} (hb : b ∈ p.rxRingBase ++ p.txRingBase)
    {x : Nat} (lower : b.toNat ≤ x) (upper : x < b.toNat + 16 * QS p) : ¬ inBytes p.poolPBase bytes x := by
  obtain ⟨noWrap, -, apart⟩ := (poolRoom_iff p bytes).mp room
  have ring := apart _ (List.mem_map_of_mem (f := fun b => (b.toNat, 16 * QS p)) hb)
  dsimp only at ring
  rintro ⟨k, hk, rfl⟩
  rw [BitVec.toNat_add, BitVec.toNat_ofNat, Nat.mod_eq_of_lt (a := k) (by omega), Nat.mod_eq_of_lt (by omega)] at lower upper
  omega

/-- The allocator's answer draws no contents. -/
theorem State.askBacking_contents (s : State) (bytes : Nat) : (s.askBacking bytes).2.env.contents = s.env.contents := by
  unfold State.askBacking
  split <;> rfl

theorem State.poolCreate_unrepresentable {s : State} {count size : Nat} (h : 2 ^ 32 ≤ count ∨ 2 ^ 32 ≤ size ∨ (0 < count ∧ size = 0)) :
    s.poolCreate count size = (false, s) := by
  rcases s.poolCreate_cases count size with ⟨e, -⟩ | ⟨countFits, sizeFits, nonzero, -⟩
  · exact e
  · omega

/-- A request that can be represented is answered as the allocator answers (R181). -/
theorem State.poolCreate_asked {s u : State} {count size : Nat} {granted : Bool} (countFits : count < 2 ^ 32) (sizeFits : size < 2 ^ 32)
    (nonzero : count = 0 ∨ 0 < size) (asked : s.askBacking (count * size) = (granted, u)) :
    s.poolCreate count size =
      if granted then (true, { u.drawContents (count * size) with pool := Pool.fresh count size }) else (false, u) := by
  rcases s.poolCreate_cases count size with ⟨-, unfit⟩ | ⟨-, -, -, ⟨answer, e⟩ | ⟨answer, e⟩⟩
  · omega
  · rw [asked] at answer e
    cases answer
    exact e
  · rw [asked] at answer e
    cases answer
    exact e

theorem State.askBacking_same {s u : State} {bytes : Nat} {granted : Bool} (asked : s.askBacking bytes = (granted, u)) :
    u = { s with env := u.env } := by
  have frame := s.askBacking_frame bytes
  rwa [asked] at frame

/-- The contents drawn after a grant (R51): the new pool's bytes and no other, none of them a ring's. -/
theorem State.drawContents_of_granted {s u : State} {bytes : Nat} (asked : s.askBacking bytes = (true, u)) :
    (∀ k < bytes, (u.drawContents bytes).mem.get (s.cfg.poolPBase + BitVec.ofNat 64 k).toNat = s.freshByte k) ∧
    bytesKept s.mem (u.drawContents bytes).mem (inBytes s.cfg.poolPBase bytes) ∧
    ∀ b ∈ s.cfg.rxRingBase ++ s.cfg.txRingBase, ∀ x, b.toNat ≤ x → x < b.toNat + 16 * QS s.cfg →
      (u.drawContents bytes).mem.get x = s.mem.get x := by
  have room : poolRoom s.cfg bytes = true := State.askBacking_room (by rw [asked])
  have contents : u.env.contents = s.env.contents := by rw [← s.askBacking_contents bytes, asked]
  have mem : u.mem = s.mem := by rw [State.askBacking_same asked]
  have cfg : u.cfg = s.cfg := by rw [State.askBacking_same asked]
  have kept : bytesKept s.mem (u.drawContents bytes).mem (inBytes s.cfg.poolPBase bytes) := mem ▸ cfg ▸ u.bytesKept_drawContents bytes
  refine ⟨fun k hk => ?_, kept, fun b hb x lower upper => kept x (not_inBytes_of_ring room hb lower upper)⟩
  have fits : bytes ≤ 2 ^ 64 := by
    obtain ⟨noWrap, -⟩ := (poolRoom_iff _ _).mp room
    omega
  have drawn := u.drawContents_get fits hk
  rwa [State.freshByte, mem, cfg, contents] at drawn

/-- Settles O13: a request that can be represented is answered as the allocator answers, and its grant comes with the pool's place. -/
theorem poolAllocateCreatesPool : Obligations.PoolAllocateCreatesPool := by
  intro s
  refine ⟨fun halted => exec_halted halted nofun, fun hs taken => ?_, fun hs absent closed => ?_⟩
  · have guard : (s.pool.present || s.inited) = true := by simpa using taken
    simp only [exec, execPoolAllocate, haltCheck_running hs, Option.getD_none, guard, if_true]
    rfl
  have run : exec .poolAllocate s = .next
      ((s.poolCreate s.a0.toNat s.a1.toNat).2.finish (if (s.poolCreate s.a0.toNat s.a1.toNat).1 then .ok else .nomem)) := by
    simp only [exec, execPoolAllocate, haltCheck_running hs, Option.getD_none, absent, closed, Bool.or_self, Bool.false_eq_true, if_false]
  refine ⟨fun unfit => ?unfit, fun countFits sizeFits nonzero u => ⟨fun noRoom => ?noRoom, fun asked => ?refused, fun asked => ?granted⟩⟩
  case unfit =>
    rw [run, State.poolCreate_unrepresentable unfit]
    rfl
  case noRoom =>
    by_contra granted
    rw [State.askBacking_room (by simpa using granted)] at noRoom
    cases noRoom
  case refused =>
    refine ⟨State.askBacking_same asked, ?_⟩
    rw [run, State.poolCreate_asked countFits sizeFits nonzero asked]
    rfl
  case granted =>
    obtain ⟨drawn, kept, rings⟩ := State.drawContents_of_granted asked
    have contents : u.env.contents = s.env.contents := by rw [← s.askBacking_contents (s.a0.toNat * s.a1.toNat), asked]
    refine ⟨State.askBacking_same asked, _, run, ?_⟩
    rw [State.poolCreate_asked countFits sizeFits nonzero asked]
    refine ⟨by rw [← contents]; rfl, drawn, kept, rings, rfl, ?count, ?size, List.length_replicate, ?free⟩
    case count => exact (BitVec.toNat_ofNat _ _).trans (Nat.mod_eq_of_lt countFits)
    case size => exact (BitVec.toNat_ofNat _ _).trans (Nat.mod_eq_of_lt sizeFits)
    case free =>
      intro e he
      rw [List.eq_of_mem_replicate he]
      exact ⟨rfl, rfl⟩

end Sys2Proof.Machine
end

section
/-! The classic ring driver behind its preamble (spec/43_classic_ring.md R200): an operation and its form in the contract (R260) do the
same on a running classic block. With it what `CANRX`, `CANTX`, `TX` and `TXALLOC` answer, and the first branch of `RX`. -/

namespace Sys2Proof.Machine

/-! ## Behind the preamble (R200, R260) -/

section
variable {q : Nat} {s : State} {op : Instr}

theorem crQueueCheck_ready (ready : ringReady q s) : crQueueCheck q s = none := by
  obtain ⟨running, family, open', inRange⟩ := ready
  exact (crQueueCheck_none q s).mpr ⟨⟨running, family, open'⟩, inRange⟩

/-- An operation and its form in the contract (R260) where they do the same. -/
theorem exec_of_forms {cr dev : Instr} {r : Result} (hop : op ∈ [cr, dev]) (hcr : exec cr s = r) (hdev : exec dev s = r) :
    exec op s = r := by
  simp only [List.mem_cons, List.not_mem_nil, or_false] at hop
  rcases hop with rfl | rfl
  · exact hcr
  · exact hdev

/-- The same on a running classic block, for an operation with a queue. -/
theorem exec_queuedForms {cr dev : Instr} (classic token : State → Result) (ready : ringReady q s) (hop : op ∈ [cr, dev])
    (hcr : exec cr s = classic s) (hdev : exec dev s = byFamilyQueued q classic token s) : exec op s = classic s := by
  obtain ⟨running, family, -⟩ := ready
  exact exec_of_forms hop hcr (hdev.trans (byFamily_classic running family _ _))

section
variable (ready : ringReady q s)
include ready

theorem exec_classicCanrx (hop : op ∈ [Instr.crCanrx q, .devCanrx q]) : exec op s = .next
    (if (s.queue q).rxq ≠ [] then s.ok1 1#64
     else s.envTurn.ok1 (boolWord (rxDone (s.envTurn.mem.load (rxd s.cfg q (s.queue q).rxIndex.toNat + 8#64) 8)))) := by
  rw [exec_queuedForms (execCrCanrx q) execTrCanrx ready hop rfl rfl, execCrCanrx, crQueueCheck_ready ready]
  rfl

theorem exec_classicRx (hop : op ∈ [Instr.crRx q, .devRx q]) : exec op s = crRxBody q s := by
  rw [exec_queuedForms (execCrRx q) execTrRx ready hop rfl rfl, execCrRx, crQueueCheck_ready ready]

theorem exec_classicCantx (hop : op ∈ [Instr.crCantx q, .devCantx q]) : exec op s = .next (s.ok1 (boolWord (s.txRoom q))) := by
  rw [exec_queuedForms (execCrCantx q) execTrCantx ready hop rfl rfl, execCrCantx, crQueueCheck_ready ready]
  rfl

theorem exec_classicTx (hop : op ∈ [Instr.crTx q, .devTx q]) : exec op s = .next (crTxOwn q s) := by
  rw [exec_queuedForms (execCrTx q) execTrTx ready hop rfl rfl, execCrTx_eq, crQueueCheck_ready ready]
  rfl

theorem exec_classicTxrecycle (hop : op ∈ [Instr.crTxrecycle q, .devTxrecycle q]) :
    exec op s = .next (txReclaim q (QS s.cfg) s).ok := by
  rw [exec_queuedForms (execCrTxrecycle q) execTrTxrecycle ready hop rfl rfl, execCrTxrecycle, crQueueCheck_ready ready]
  rfl

end

theorem exec_classicTxalloc (ready : classicReady s) (hop : op ∈ [Instr.crTxalloc, .devTxalloc]) :
    exec op s = .next (if s.pool.esz.toNat < s.a0.toNat then s.finish .inval else leaseAndEmit s) := by
  have ⟨running, family, _⟩ := ready
  rw [exec_of_forms (r := execCrTxalloc s) hop rfl (byFamily_classic running family execCrTxalloc execTrTxalloc), execCrTxalloc,
    crCheck_ready ready]
  rfl

end

/-! ## Predicates (R204, R207) -/

theorem State.txRoom_iff (s : State) (q : Nat) : s.txRoom q = true ↔ slotAt (s.queue q).txBuf (s.queue q).txIndex.toNat = none := by
  rw [State.txRoom, Option.isNone_iff_eq_none]

/-- Settles O23: behind the preamble each predicate is one test, and only the second one of `CANRX` reads memory. -/
theorem classicPredicates : Obligations.ClassicPredicates := by
  intro q s ready
  refine ⟨fun op hop => ⟨fun waiting => ?_, fun empty => ?_, fun quiet x => by rw [State.afterTurn_quiet quiet]⟩, fun op hop => ?_⟩
  · rw [exec_classicCanrx ready hop, if_pos waiting]
    rfl
  · rw [exec_classicCanrx ready hop, if_neg (not_not.mpr empty), State.afterTurn_eq, rxDone, boolWord_getLsbD, BitVec.ushiftRight_zero]
    rfl
  · have predicate : boolWord (s.txRoom q) = if slotAt (s.queue q).txBuf (s.queue q).txIndex.toNat = none then 1#64 else 0#64 := by
      simp only [boolWord, State.txRoom_iff]
    rw [exec_classicCantx ready hop, predicate]
    rfl

/-! ## Allocation for transmit (R210) -/

/-- A pool has nothing to lease exactly where none of its entries is free (R187). -/
theorem State.lease_none_iff {s : State} (hasPool : s.pool.present = true) :
    s.lease = none ↔ ∀ i < s.pool.ent.length, (s.entry i).tag ≠ .free := by
  rw [State.lease_none, hasPool, Pool.freeEntries_eq_nil]
  simp only [reduceCtorEq, false_or]
  rfl

/-- Settles O31: the size check, then the lease, by whether there is a free entry. -/
theorem crTxallocLendsFreeEntry : Obligations.CrTxallocLendsFreeEntry := by
  intro s ready hasPool op hop
  rw [exec_classicTxalloc ready hop]
  refine ⟨fun large => by rw [if_pos large]; rfl, fun fits => ?_⟩
  rw [if_neg (Nat.not_lt.mpr fits)]
  refine ⟨fun noneFree => ?_, fun ⟨i, inPool, free⟩ => ?_⟩
  · rw [leaseAndEmit_nomem ((State.lease_none_iff hasPool).mpr noneFree)]
    rfl
  · cases lease : s.lease with
    | some j => exact ⟨_, rfl, leaseAndEmit_lendsFree lease⟩
    | none => exact absurd free ((State.lease_none_iff hasPool).mp lease i inPool)

/-! ## Transmit (R208) -/

theorem modify_eq_set_getD {α : Type} (l : List α) (k : Nat) (f : α → α) (d : α) : l.modify k f = l.set k (f (l.getD k d)) := by
  by_cases inList : k < l.length
  · rw [List.modify_eq_set_get f inList, List.getD_eq_getElem l d inList]
    rfl
  · rw [List.set_eq_of_length_le (Nat.le_of_not_lt inList), List.modify_eq_self (Nat.le_of_not_lt inList)]

/-- Changing a queue's record, as an assignment to one place. -/
theorem State.setQueue_eq_set (s : State) (q : Nat) (f : Queue → Queue) :
    s.setQueue q f = { s with queues := s.queues.set q (f (s.queue q)) } := by
  rw [State.setQueue, modify_eq_set_getD s.queues q f {}]
  rfl

theorem State.Inv.present_of_inited {s : State} (inv : s.Inv) (open' : s.inited = true) : s.pool.present = true := by
  obtain ⟨-, -, -, -, -, -, -, -, -, hasPool⟩ := inv.sizes
  exact hasPool open'

/-- `CR.TX` with the handle of a lent entry reaches the ring (R208). -/
theorem crTxOwn_of_lent {q i : Nat} {s : State} (inv : s.Inv) (open' : s.inited = true) (lent : s.lent i s.handleIn) :
    crTxOwn q s = crTxBody q i s := by
  rw [crTxOwn, inv.reclaim_iff.mpr ⟨inv.present_of_inited open', lent⟩]

/-- Settles O29: without a lent entry's handle the handle check fails, and with it the ring is looked at. -/
theorem crTxRefuses : Obligations.CrTxRefuses := by
  intro q s inv ready op hop
  have ⟨_, _, open', _⟩ := ready
  rw [exec_classicTx ready hop]
  refine ⟨fun noneLent => ?_, fun ⟨i, lent⟩ occupied => ?_⟩
  · have refused : s.reclaim s.handleIn = none :=
      Option.eq_none_iff_forall_ne_some.mpr fun i accepted => noneLent i (inv.reclaim_iff.mp accepted).2
    rw [(takesHandle_crTxOwn q).refuses refused]
    rfl
  · have full : s.txRoom q = false := by rwa [← Bool.not_eq_true, State.txRoom_iff]
    rw [crTxOwn_of_lent inv open' lent, crTxBody, if_pos full]
    rfl

/-- Settles O28: the accesses before the hand-over change nothing of the block, and with no device step in between they are the stores
of the fields, which compose to the words of R117. -/
theorem crTxHandsOver : Obligations.CrTxHandsOver := by
  intro q i s inv ready lent empty op hop
  have ⟨_, _, open', _⟩ := ready
  have room : ¬ s.txRoom q = false := by rw [(s.txRoom_iff q).mpr empty]; exact nofun
  rw [exec_classicTx ready hop, crTxOwn_of_lent inv open' lent, crTxBody, if_neg room]
  have sent := s.txSend_envChange (txd s.cfg q (s.queue q).txIndex.toNat) (s.physOf i + (s.entry i).hdrLen) (s.entry i).pktLen
  refine ⟨_, rfl, ?block, fun quiet => ?descriptor⟩
  case block =>
    dsimp only
    generalize s.txSend _ _ _ = u at sent ⊢
    rw [sent.same]
    simp only [State.setQueue, State.setEnt, List.modify_modify_eq, Function.comp_def]
    rw [modify_eq_set_getD _ _ _ ({} : Queue), modify_eq_set_getD _ _ _ ({} : Entry)]
    rfl
  case descriptor =>
    have fields := s.mem.txFields_sendFields (txd s.cfg q (s.queue q).txIndex.toNat) (s.physOf i + (s.entry i).hdrLen) (s.entry i).pktLen
    rw [State.txSend_quiet quiet]
    exact ⟨rfl, rfl, rfl, fields.addr, fields.second_word.trans (sentWord_eq_fields _), s.mem.storeFields_kept _ (sendFields_fits _ _)⟩

/-! ## Receive with pulled packets waiting (R205, first branch) -/

/-- Popping the front of the software queue hands it to the host. -/
theorem popAndEmit_eq {q i : Nat} {rest : List Nat} {s : State} (front : (s.queue q).rxq = i :: rest) :
    popAndEmit q s = .next (s.handsFront q i rest) := by
  rw [popAndEmit, front]
  simp only [State.emit, State.setEnt, State.setQueue_eq_set, modify_eq_set_getD _ _ _ ({} : Entry), State.handleOf, BitVec.add_zero]
  rfl

/-- Settles O25: where packets wait `RX` pops the front, before any access to memory. -/
theorem crRxPopsOldest : Obligations.CrRxPopsOldest := by
  intro q i rest s ready front op hop
  have waiting : (s.queue q).rxq ≠ [] := by rw [front]; exact nofun
  rw [exec_classicRx ready hop, crRxBody, if_pos waiting, popAndEmit_eq front]

end Sys2Proof.Machine
end

section
/-! Loops over the slots of one ring: reclaiming transmit slots (R209), and what a batch of `RX` does at its next slot (R205). -/

namespace Sys2Proof.Machine

/-! ## Slots in ring order (R14, R26) -/

theorem QS_lt (p : Params) : QS p < 2 ^ 16 := p.qs.isLt

section
variable {p : Params} {i : BitVec 16}

theorem slotFrom_lt (h : 0 < QS p) (j : Nat) : slotFrom p i j < QS p := Nat.mod_lt _ h

theorem slotFrom_zero (h : i.toNat < QS p) : slotFrom p i 0 = i.toNat := Nat.mod_eq_of_lt h

/-- Different steps within one lap come to different slots. -/
theorem slotFrom_inj {j k : Nat} (hj : j < QS p) (hk : k < QS p) (h : slotFrom p i j = slotFrom p i k) : j = k := slot_inj hj hk h

theorem slotFrom_ne {j k : Nat} (hj : j < QS p) (hk : k < QS p) (h : j ≠ k) : slotFrom p i j ≠ slotFrom p i k :=
  mt (slotFrom_inj hj hk) h

/-- One lap comes back to where it began. -/
theorem slotFrom_QS : slotFrom p i (QS p) = slotFrom p i 0 := Nat.add_mod_right _ _

/-- The index that stands at a slot. -/
theorem slotFrom_index_toNat (h : 0 < QS p) (j : Nat) : (BitVec.ofNat 16 (slotFrom p i j)).toNat = slotFrom p i j := by
  have := slotFrom_lt (i := i) h j
  have := QS_lt p
  rw [BitVec.toNat_ofNat, Nat.mod_eq_of_lt (by omega)]

/-- The index advances from slot to slot. -/
theorem ringNext_slotFrom (h : 0 < QS p) (j : Nat) :
    ringNext p (BitVec.ofNat 16 (slotFrom p i j)) = BitVec.ofNat 16 (slotFrom p i (j + 1)) := by
  rw [ringNext, slotFrom_index_toNat h, slotFrom, slotFrom, Nat.mod_add_mod, Nat.add_assoc]

end

/-! ## Reclaiming transmit slots (R209) -/

theorem State.queue_setQueue {s : State} {q : Nat} (h : q < s.queues.length) (f : Queue → Queue) (r : Nat) :
    (s.setQueue q f).queue r = if r = q then f (s.queue q) else s.queue r := by
  split
  · next e => rw [e, State.queue_setQueue_self h]
  · next e => exact State.queue_setQueue_ne e f

/-- Releasing an entry: also where there is no such entry, since what is read there is free. -/
theorem State.entry_release (s : State) (i e : Nat) :
    (s.release i).entry e = if e = i then { s.entry i with tag := .free, wire := none } else s.entry e := by
  by_cases inPool : i < s.pool.ent.length
  · exact State.entry_setEnt inPool _ e
  · split
    · next same =>
      subst same
      rw [State.entry_of_le (by simpa using inPool), State.entry_of_le (Nat.le_of_not_lt inPool)]
    · next other => exact State.entry_setEnt_ne other _

/-- What one turn of the loop of `CR.TXRECYCLE` does (R209): the buffer `i` of the slot at `tx_clean` goes back to the pool. -/
def State.cleanSlot (s : State) (q i : Nat) : State :=
  ((s.setQueue q (fun u => { u with txBuf := u.txBuf.set (s.queue q).txClean.toNat none })).release i).setQueue q
    (fun u => { u with txClean := ringNext s.cfg u.txClean })

theorem State.cleanSlot_queue {s : State} {q : Nat} (h : q < s.queues.length) (i r : Nat) :
    (s.cleanSlot q i).queue r = if r = q then
      { s.queue q with
        txBuf := (s.queue q).txBuf.set (s.queue q).txClean.toNat none, txClean := ringNext s.cfg (s.queue q).txClean }
      else s.queue r := by
  rw [State.cleanSlot, State.queue_setQueue (by simpa using h)]
  split
  · exact congrArg (fun u : Queue => { u with txClean := ringNext s.cfg u.txClean }) (State.queue_setQueue_self h _)
  · next other => exact State.queue_setQueue_ne other _

theorem State.cleanSlot_entry (s : State) (q i e : Nat) :
    (s.cleanSlot q i).entry e = if e = i then { s.entry i with tag := .free, wire := none } else s.entry e :=
  s.entry_release i e

/-- The status of the transmit slot at `tx_clean`. -/
def State.txHead (s : State) (q : Nat) : Bool := (s.mem.load (txd s.cfg q (s.queue q).txClean.toNat + 12#64) 4).getLsbD 0

section
variable {q fuel : Nat} {s : State} (quiet : s.quiet)
include quiet

theorem txReclaim_turn {i : Nat} (held : slotAt (s.queue q).txBuf (s.queue q).txClean.toNat = some i) (done : s.txHead q = true) :
    txReclaim q (fuel + 1) s = txReclaim q fuel (s.cleanSlot q i) := by
  have notStopped : ¬ txDone (s.mem.load (txd s.cfg q (s.queue q).txClean.toNat + 12#64) 4) = false := by
    rw [Bool.not_eq_false]
    exact done
  simp only [txReclaim, held, State.memRead_fst, State.memRead_snd, State.envTurn_quiet quiet, if_neg notStopped]
  rfl

/-- The loop ends at a slot that is empty or not done. -/
theorem txReclaim_stop (stop : slotAt (s.queue q).txBuf (s.queue q).txClean.toNat = none ∨ s.txHead q = false) :
    txReclaim q fuel s = s := by
  cases fuel with
  | zero => rfl
  | succ fuel =>
    cases held : slotAt (s.queue q).txBuf (s.queue q).txClean.toNat with
    | none => simp only [txReclaim, held]
    | some i =>
      have waiting : txDone (s.mem.load (txd s.cfg q (s.queue q).txClean.toNat + 12#64) 4) = false :=
        stop.resolve_left (by rw [held]; exact nofun)
      simp only [txReclaim, held, State.memRead_fst, State.memRead_snd, State.envTurn_quiet quiet, if_pos waiting]

end

/-- `u` is `s` after `k` transmit slots of queue `q` were reclaimed in ring order from `tx_clean` (R209). -/
structure TxReclaimed (s : State) (q k : Nat) (u : State) : Prop where
  same : u = { s with queues := u.queues, pool := { s.pool with ent := u.pool.ent } }
  entries : u.pool.ent.length = s.pool.ent.length
  records : u.queues.length = s.queues.length
  others : ∀ r ≠ q, u.queue r = s.queue r
  record : u.queue q =
    { s.queue q with txBuf := (u.queue q).txBuf, txClean := BitVec.ofNat 16 (slotFrom s.cfg (s.queue q).txClean k) }
  emptied : ∀ j < k, slotAt (u.queue q).txBuf (slotFrom s.cfg (s.queue q).txClean j) = none
  slotsKept : ∀ j < QS s.cfg, (∀ m < k, j ≠ slotFrom s.cfg (s.queue q).txClean m) →
    slotAt (u.queue q).txBuf j = slotAt (s.queue q).txBuf j
  freed : ∀ e, (∃ j < k, slotAt (s.queue q).txBuf (slotFrom s.cfg (s.queue q).txClean j) = some e) →
    u.entry e = { s.entry e with tag := .free, wire := none }
  entriesKept : ∀ e, (∀ j < k, slotAt (s.queue q).txBuf (slotFrom s.cfg (s.queue q).txClean j) ≠ some e) → u.entry e = s.entry e

section
variable {s u : State} {q k : Nat}

theorem TxReclaimed.start (inRange : (s.queue q).txClean.toNat < QS s.cfg) : TxReclaimed s q 0 s where
  same := rfl
  entries := rfl
  records := rfl
  others _ _ := rfl
  record := by rw [slotFrom_zero inRange, BitVec.ofNat_toNat, BitVec.setWidth_eq]
  emptied _ hj := absurd hj (Nat.not_lt_zero _)
  slotsKept _ _ _ := rfl
  freed _ hj := by obtain ⟨j, hj, -⟩ := hj; exact absurd hj (Nat.not_lt_zero _)
  entriesKept _ _ := rfl

variable (h : TxReclaimed s q k u)
include h

theorem TxReclaimed.cfg : u.cfg = s.cfg := by rw [h.same]
theorem TxReclaimed.mem : u.mem = s.mem := by rw [h.same]
theorem TxReclaimed.quiet (quiet : s.quiet) : u.quiet := by rw [h.same]; exact quiet

theorem TxReclaimed.txClean_toNat (pos : 0 < QS s.cfg) : (u.queue q).txClean.toNat = slotFrom s.cfg (s.queue q).txClean k := by
  rw [h.record]
  exact slotFrom_index_toNat pos k

/-- Within one lap the next slot is as it was. -/
theorem TxReclaimed.slotAt_next (hk : k < QS s.cfg) : slotAt (u.queue q).txBuf (slotFrom s.cfg (s.queue q).txClean k) =
    slotAt (s.queue q).txBuf (slotFrom s.cfg (s.queue q).txClean k) :=
  h.slotsKept _ (slotFrom_lt (by omega) k) fun _ _ => slotFrom_ne hk (by omega) (by omega)

theorem TxReclaimed.turn {i : Nat} (hk : k < QS s.cfg) (hq : q < s.queues.length)
    (held : slotAt (s.queue q).txBuf (slotFrom s.cfg (s.queue q).txClean k) = some i) : TxReclaimed s q (k + 1) (u.cleanSlot q i) := by
  have pos : 0 < QS s.cfg := by omega
  have queue := State.cleanSlot_queue (h.records ▸ hq : q < u.queues.length) i
  have record : (u.cleanSlot q i).queue q = { s.queue q with
      txBuf := (u.queue q).txBuf.set (slotFrom s.cfg (s.queue q).txClean k) none
      txClean := BitVec.ofNat 16 (slotFrom s.cfg (s.queue q).txClean (k + 1)) } := by
    rw [queue, if_pos rfl, h.txClean_toNat pos, h.cfg, h.record]
    dsimp only
    rw [ringNext_slotFrom pos]
  refine ⟨?same, ?entries, ?records, fun r hr => ?others, ?record, fun j hj => ?emptied, fun j hj other => ?slotsKept, fun e he => ?freed,
    fun e other => ?entriesKept⟩
  case same => rw [State.cleanSlot, h.same]; rfl
  case entries => simpa [State.cleanSlot] using h.entries
  case records => simpa [State.cleanSlot] using h.records
  case others => rw [queue, if_neg hr, h.others r hr]
  case record => rw [record]
  case emptied =>
    rw [record]
    by_cases last : j = k
    · rw [last, slotAt_set_none_self]
    · rw [slotAt_set_ne (slotFrom_ne (by omega) hk last), h.emptied j (by omega)]
  case slotsKept =>
    rw [record, slotAt_set_ne (other k (by omega))]
    exact h.slotsKept j hj fun m hm => other m (by omega)
  case freed =>
    rw [State.cleanSlot_entry]
    by_cases before : ∃ j < k, slotAt (s.queue q).txBuf (slotFrom s.cfg (s.queue q).txClean j) = some e
    · have freed := h.freed e before
      split
      · next same => rw [← same, freed]
      · exact freed
    · have untouched : u.entry e = s.entry e := h.entriesKept e fun j hj at_j => before ⟨j, hj, at_j⟩
      obtain ⟨j, hj, at_j⟩ := he
      obtain rfl : j = k := by
        by_contra earlier
        exact before ⟨j, by omega, at_j⟩
      obtain rfl : i = e := Option.some.inj (held.symm.trans at_j)
      rw [if_pos rfl, untouched]
  case entriesKept =>
    have notThis : e ≠ i := fun same => other k (by omega) (same ▸ held)
    rw [State.cleanSlot_entry, if_neg notThis]
    exact h.entriesKept e fun j hj => other j (by omega)

end

theorem State.Inv.record {s : State} (inv : s.Inv) {q : Nat} (inRange : q < QN s.cfg) :
    q < s.queues.length ∧ (s.queue q).sizesOk s.cfg := by
  obtain ⟨queues, records, -⟩ := inv.sizes
  have hq : q < s.queues.length := queues ▸ inRange
  exact ⟨hq, records _ (State.queue_mem hq)⟩

/-- Settles O30: after each of the `k` turns the loop has the slots before it reclaimed, and there it stops. -/
theorem crTxrecycleReclaimsDone : Obligations.CrTxrecycleReclaimsDone := by
  intro q k s inv quiet ready slot done hk run stop op hop
  have ⟨_, _, _, inRange⟩ := ready
  obtain ⟨hq, -, -, -, -, txClean, -⟩ := inv.record inRange
  have pos : 0 < QS s.cfg := by omega
  -- the loop after its first `m` turns
  have turns : ∀ m ≤ k, ∃ u, TxReclaimed s q m u ∧ txReclaim q (QS s.cfg) s = txReclaim q (QS s.cfg - m) u := by
    intro m
    induction m with
    | zero => exact fun _ => ⟨s, .start txClean, rfl⟩
    | succ m ih =>
      intro hm
      obtain ⟨u, reclaimed, loop⟩ := ih (by omega)
      obtain ⟨occupied, isDone⟩ := run m (by omega)
      obtain ⟨i, held⟩ := Option.ne_none_iff_exists'.mp occupied
      refine ⟨_, reclaimed.turn (by omega) hq held, ?_⟩
      rw [loop, show QS s.cfg - m = QS s.cfg - (m + 1) + 1 by omega]
      refine txReclaim_turn (reclaimed.quiet quiet) ?_ ?_
      · rw [reclaimed.txClean_toNat pos, reclaimed.slotAt_next (by omega)]
        exact held
      · rw [State.txHead, reclaimed.txClean_toNat pos, reclaimed.mem, reclaimed.cfg]
        exact isDone
  obtain ⟨u, reclaimed, loop⟩ := turns k le_rfl
  have ends : txReclaim q (QS s.cfg) s = u := by
    rw [loop]
    by_cases whole : k = QS s.cfg
    · rw [whole, Nat.sub_self]
      rfl
    · refine txReclaim_stop (reclaimed.quiet quiet) ?_
      rw [reclaimed.txClean_toNat pos, reclaimed.slotAt_next (by omega), State.txHead, reclaimed.txClean_toNat pos, reclaimed.mem,
        reclaimed.cfg]
      exact stop.resolve_left whole
  rw [exec_classicTxrecycle ready hop, ends]
  exact ⟨_, rfl, by rw [reclaimed.same]; rfl, reclaimed.entries, reclaimed.records, reclaimed.others, reclaimed.record,
    reclaimed.emptied, reclaimed.slotsKept, reclaimed.freed, reclaimed.entriesKept⟩

/-! ## The next slot of a batch (R205) -/

/-- The second word of the receive descriptor at `rx_index[q]`. -/
def State.rxHead (s : State) (q : Nat) : Word := s.mem.load (rxd s.cfg q (s.queue q).rxIndex.toNat + 8#64) 8

section
variable {q fuel n : Nat} {s : State} (quiet : s.quiet)
include quiet

theorem rxBatch_notDone (notDone : (s.rxHead q).getLsbD 0 = false) : rxBatch q fuel n s = (.ended, n, s) := by
  cases fuel with
  | zero => rfl
  | succ fuel =>
    simp only [rxBatch, State.memRead_fst, State.memRead_snd, State.envTurn_quiet quiet]
    exact if_pos notDone

variable (done : (s.rxHead q).getLsbD 0 = true)
include done

theorem rxBatch_noEop (noEop : (s.rxHead q).getLsbD 1 = false) : rxBatch q (fuel + 1) n s = (.noEop, n, s) := by
  simp only [rxBatch, State.memRead_fst, State.memRead_snd, State.envTurn_quiet quiet]
  exact (if_neg (Bool.not_eq_false _ ▸ done)).trans (if_pos noEop)

variable (eop : (s.rxHead q).getLsbD 1 = true)
include eop

theorem rxBatch_of_packet : rxBatch q (fuel + 1) n s = match s.lease with
    | none => (.ended, n, s)
    | some j => match slotAt (s.queue q).rxBuf (s.queue q).rxIndex.toNat with
      | none => (.slotEmpty, n, s)
      | some i => rxBatch q fuel (n + 1) (drainSlot q (s.queue q).rxIndex.toNat i j (s.rxHead q) s) := by
  simp only [rxBatch, State.memRead_fst, State.memRead_snd, State.envTurn_quiet quiet]
  exact (if_neg (Bool.not_eq_false _ ▸ done)).trans (if_neg (Bool.not_eq_false _ ▸ eop))

theorem rxBatch_noStock (noLease : s.lease = none) : rxBatch q fuel n s = (.ended, n, s) := by
  cases fuel with
  | zero => rfl
  | succ fuel => rw [rxBatch_of_packet quiet done eop, noLease]

theorem rxBatch_drain {i j : Nat} (lease : s.lease = some j) (held : slotAt (s.queue q).rxBuf (s.queue q).rxIndex.toNat = some i) :
    rxBatch q (fuel + 1) n s = rxBatch q fuel (n + 1) (drainSlot q (s.queue q).rxIndex.toNat i j (s.rxHead q) s) := by
  rw [rxBatch_of_packet quiet done eop, lease]
  simp only [held]

end

/-- `CR.RX` with nothing pulled, by the slot at `rx_index` and then by how its batch ends (R205). -/
theorem crRxBody_of_empty {q : Nat} {s : State} (quiet : s.quiet) (empty : (s.queue q).rxq = []) : crRxBody q s =
    if (s.rxHead q).getLsbD 0 = false then .next (s.finish .again)
    else match (rxBatch q rxBatchSize 0 s).1 with
      | .slotEmpty => .fault .ringSlotEmpty
      | .noEop => .next ((rxBatch q rxBatchSize 0 s).2.2.raise .rxNoEop)
      | .ended =>
        if (rxBatch q rxBatchSize 0 s).2.1 = 0 then .next ((rxBatch q rxBatchSize 0 s).2.2.raise .rxEmptyBatch)
        else popAndEmit q (rxBatch q rxBatchSize 0 s).2.2 := by
  rw [crRxBody, if_neg (not_not.mpr empty), State.memRead, State.envTurn_quiet quiet]
  rfl

/-- Settles O26: the batch ends at its first slot, before it has changed anything. -/
theorem crRxWithoutPacket : Obligations.CrRxWithoutPacket := by
  intro q s ready quiet empty op hop
  rw [exec_classicRx ready hop, crRxBody_of_empty quiet empty]
  refine ⟨fun notDone => ?_, fun done noEop => ?_, fun done eop noneFree => ?_⟩
  · exact if_pos notDone
  · rw [if_neg (Bool.not_eq_false _ ▸ done), rxBatchSize, rxBatch_noEop quiet done noEop]
    rfl
  · have noLease : s.lease = none := State.lease_none.mpr (Or.inr (Pool.freeEntries_eq_nil.mpr noneFree))
    rw [if_neg (Bool.not_eq_false _ ▸ done), rxBatch_noStock quiet done eop noLease]
    rfl

end Sys2Proof.Machine
end

section
/-! What the init operations answer instead of initialising (R200, R201, R230, R231): the checks in the order of R308, then the stock of
entries, then the allocator. -/

namespace Sys2Proof.Machine

/-! ## The checks (R308) -/

section
variable {f : Family} {s : State} (hs : s.halted = false)
include hs

theorem initCheck_otherFamily (other : s.cfg.family ≠ f) : initCheck f s = some (s.finish .unsupp) := by
  rw [initCheck_eq, if_neg (by simp [hs]), if_neg other]

theorem initCheck_inited (family : s.cfg.family = f) (open' : s.inited = true) : initCheck f s = some (s.raise .alreadyInited) := by
  rw [initCheck_eq, if_neg (by simp [hs]), if_pos family, if_pos open']

theorem initCheck_pool (family : s.cfg.family = f) (closed : s.inited = false) (hasPool : s.pool.present = true) :
    initCheck f s = some (s.raise .poolExists) := by
  rw [initCheck_eq, if_neg (by simp [hs]), if_pos family, if_neg (by simp [closed]), if_pos hasPool]

end

/-! ## Behind the checks -/

/-- What an init operation does behind its checks, by the family (R201, R231). -/
def initBody (s : State) : State :=
  match s.cfg.family with
  | .classic => crInitBody s
  | .token => trInitBody s

/-- An init operation of the family at hand, and `DEV.INIT` of any (R261). -/
theorem exec_init {s : State} (hs : s.halted = false) {op : Instr} (hop : op ∈ [Instr.crInit, .trInit, .devInit])
    (cr : op = .crInit → s.cfg.family = .classic) (tr : op = .trInit → s.cfg.family = .token) :
    exec op s = .next ((initCheck s.cfg.family s).getD (initBody s)) := by
  have classic (family : s.cfg.family = .classic) : execCrInit s = .next ((initCheck s.cfg.family s).getD (initBody s)) := by
    rw [initBody, family, execCrInit]
  have token (family : s.cfg.family = .token) : execTrInit s = .next ((initCheck s.cfg.family s).getD (initBody s)) := by
    rw [initBody, family, execTrInit]
  simp only [List.mem_cons, List.not_mem_nil, or_false] at hop
  rcases hop with rfl | rfl | rfl
  · exact classic (cr rfl)
  · exact token (tr rfl)
  · cases family : s.cfg.family with
    | classic => exact family ▸ (byFamily_classic hs family execCrInit execTrInit).trans (classic family)
    | token => exact family ▸ (byFamily_token hs family execCrInit execTrInit).trans (token family)

section
variable {s u : State}

theorem crInitBody_small (small : s.cfg.poolN.toNat < QN s.cfg * QS s.cfg) : crInitBody s = s.finish .nomem := if_pos small

theorem crInitBody_refused (enough : QN s.cfg * QS s.cfg ≤ s.cfg.poolN.toNat)
    (refused : s.poolCreate s.cfg.poolN.toNat s.cfg.poolEsz.toNat = (false, u)) : crInitBody s = u.finish .nomem := by
  rw [crInitBody, if_neg (Nat.not_lt.mpr enough), refused]
  rfl

theorem trInitBody_refused (refused : s.poolCreate (2 * QS s.cfg) s.cfg.poolEsz.toNat = (false, u)) :
    trInitBody s = u.finish .nomem := by
  rw [trInitBody, refused]
  rfl

theorem validParams_QN_pos {p : Params} (h : validParams p = true) : 0 < QN p := by
  simp only [validParams, Bool.and_eq_true, decide_eq_true_eq] at h
  omega

/-- Entries of size 0 (R181), in either family. -/
theorem initBody_size_zero (valid : validParams s.cfg = true) (zero : s.cfg.poolEsz = 0#32) : initBody s = s.finish .nomem := by
  have size : s.cfg.poolEsz.toNat = 0 := by rw [zero]; rfl
  have pos : 0 < QS s.cfg := validParams_QS_pos valid
  cases family : s.cfg.family with
  | token =>
    rw [initBody, family]
    exact trInitBody_refused (State.poolCreate_unrepresentable (Or.inr (Or.inr ⟨by omega, size⟩)))
  | classic =>
    rw [initBody, family]
    by_cases small : s.cfg.poolN.toNat < QN s.cfg * QS s.cfg
    · exact crInitBody_small small
    · have slots : 0 < QN s.cfg * QS s.cfg := Nat.mul_pos (validParams_QN_pos valid) pos
      exact crInitBody_refused (by omega) (State.poolCreate_unrepresentable (Or.inr (Or.inr ⟨by omega, size⟩)))

/-- The allocator's refusal (R294). -/
theorem State.poolCreate_refused {count : Nat} (countFits : count < 2 ^ 32) (nonzero : s.cfg.poolEsz ≠ 0#32)
    (asked : s.askBacking (count * s.cfg.poolEsz.toNat) = (false, u)) : s.poolCreate count s.cfg.poolEsz.toNat = (false, u) := by
  have pos : 0 < s.cfg.poolEsz.toNat := Nat.pos_of_ne_zero fun zero => nonzero (BitVec.eq_of_toNat_eq zero)
  rw [State.poolCreate_asked countFits s.cfg.poolEsz.isLt (Or.inr pos) asked]
  rfl

end

/-- Settles O22: the checks end the operation in their order, and the two ways to NOMEM come before anything of the block changes. -/
theorem initRefusals : Obligations.InitRefusals := by
  intro s
  refine ⟨fun halted op hop => exec_halted halted ?_, fun hs => ⟨fun family => ?_, fun family => ?_, fun op hop cr tr => ?_⟩⟩
  · rintro rfl
    revert hop
    decide
  · simp only [exec, execCrInit, initCheck_otherFamily hs (f := .classic) (by simp [family])]
    rfl
  · simp only [exec, execTrInit, initCheck_otherFamily hs (f := .token) (by simp [family])]
    rfl
  have run := exec_init hs hop cr tr
  refine ⟨fun open' => ?_, fun closed hasPool => ?_, fun closed absent family small => ?_, fun closed absent valid zero => ?_,
    fun closed absent nonzero u => ⟨fun family enough asked => ⟨State.askBacking_same asked, ?_⟩,
      fun family asked => ⟨State.askBacking_same asked, ?_⟩⟩⟩
  · rw [run, initCheck_inited hs rfl open']
    rfl
  · rw [run, initCheck_pool hs rfl closed hasPool]
    rfl
  all_goals rw [run, (initCheck_none _ s).mpr ⟨hs, rfl, closed, absent⟩, Option.getD_none]
  · rw [initBody, family]
    exact congrArg _ (crInitBody_small small)
  · exact congrArg _ (initBody_size_zero valid zero)
  · rw [initBody, family]
    exact congrArg _ (crInitBody_refused enough (State.poolCreate_refused s.cfg.poolN.isLt nonzero asked))
  · have countFits : 2 * QS s.cfg < 2 ^ 32 := by
      have := QS_lt s.cfg
      omega
    rw [initBody, family]
    exact congrArg _ (trInitBody_refused (State.poolCreate_refused countFits nonzero asked))

end Sys2Proof.Machine
end

section
/-! Where the descriptors lie (R14, R73, R76): the rings are apart and do not wrap, so no two slots share a byte. -/

namespace Sys2Proof.Machine

theorem allDisjoint_iff (l : List (Nat × Nat)) :
    allDisjoint l = true ↔ l.Pairwise fun r r' => disjoint r.1 r.2 r'.1 r'.2 = true := by
  induction l with
  | nil => simp [allDisjoint]
  | cons r l ih => simp [allDisjoint, ih]

/-- The descriptor of a slot of one of the rings, the receive rings counted first. -/
def descriptor (p : Params) (ring slot : Nat) : Addr := (p.rxRingBase ++ p.txRingBase).getD ring 0#64 + BitVec.ofNat 64 (16 * slot)

/-- What a configuration that may be built says of its rings (R73, R76). -/
theorem validParams_rings {p : Params} (h : validParams p = true) : p.rxRingBase.length = QN p ∧ p.txRingBase.length = QN p ∧
    (∀ r ∈ ringRegions p, r.1 + r.2 ≤ 2 ^ 64) ∧ (ringRegions p).Pairwise fun r r' => disjoint r.1 r.2 r'.1 r'.2 = true := by
  rw [← allDisjoint_iff]
  simp only [validParams, Bool.and_eq_true, decide_eq_true_eq, beq_iff_eq, List.all_eq_true] at h
  obtain ⟨⟨⟨⟨⟨⟨-, rx⟩, tx⟩, -⟩, noWrap⟩, apart⟩, -⟩ := h
  exact ⟨rx, tx, noWrap, apart⟩

section
variable {p : Params} (valid : validParams p = true)
include valid

theorem rxd_eq_descriptor {q : Nat} (hq : q < QN p) (slot : Nat) : rxd p q slot = descriptor p q slot := by
  obtain ⟨rx, -⟩ := validParams_rings valid
  rw [rxd, descriptor, List.getD_append _ _ _ _ (rx.symm ▸ hq)]

theorem txd_eq_descriptor (q slot : Nat) : txd p q slot = descriptor p (QN p + q) slot := by
  obtain ⟨rx, -⟩ := validParams_rings valid
  rw [txd, descriptor, List.getD_append_right _ _ _ _ (by omega), rx, Nat.add_sub_cancel_left]

/-- The region of a ring (R76), by its number. -/
theorem ringRegions_get {ring : Nat} (hr : ring < 2 * QN p) : ∃ inRange : ring < (ringRegions p).length,
    (ringRegions p)[ring] = (((p.rxRingBase ++ p.txRingBase).getD ring 0#64).toNat, 16 * QS p) := by
  obtain ⟨rx, tx, -⟩ := validParams_rings valid
  have inRange : ring < (p.rxRingBase ++ p.txRingBase).length := by
    rw [List.length_append]
    omega
  refine ⟨by simpa [ringRegions] using inRange, ?_⟩
  simp only [ringRegions, List.getElem_map, List.getD_eq_getElem _ _ inRange]

/-- The bytes of a descriptor as numbers: no descriptor wraps. -/
theorem inBytes_descriptor {ring slot x : Nat} (hr : ring < 2 * QN p) (hs : slot < QS p) (inside : inBytes (descriptor p ring slot) 16 x) :
    ((p.rxRingBase ++ p.txRingBase).getD ring 0#64).toNat + 16 * slot ≤ x ∧
      x < ((p.rxRingBase ++ p.txRingBase).getD ring 0#64).toNat + 16 * slot + 16 := by
  obtain ⟨-, -, noWrap, -⟩ := validParams_rings valid
  obtain ⟨inRange, region⟩ := ringRegions_get valid hr
  have fits := noWrap _ (List.getElem_mem inRange)
  rw [region] at fits
  dsimp only at fits
  obtain ⟨k, hk, rfl⟩ := inside
  rw [descriptor, BitVec.add_assoc, ← BitVec.ofNat_add, BitVec.toNat_add, BitVec.toNat_ofNat,
    Nat.mod_eq_of_lt (a := 16 * slot + k) (by omega), Nat.mod_eq_of_lt (by omega)]
  omega

/-- A byte belongs to one descriptor (R76). -/
theorem descriptor_unique {ring ring' slot slot' x : Nat} (hr : ring < 2 * QN p) (hr' : ring' < 2 * QN p) (hs : slot < QS p)
    (hs' : slot' < QS p) (inside : inBytes (descriptor p ring slot) 16 x) (inside' : inBytes (descriptor p ring' slot') 16 x) :
    ring = ring' ∧ slot = slot' := by
  obtain ⟨-, -, -, apart⟩ := validParams_rings valid
  have bounds := inBytes_descriptor valid hr hs inside
  have bounds' := inBytes_descriptor valid hr' hs' inside'
  have ordered : ∀ a b, a < 2 * QN p → b < 2 * QN p → a < b →
      disjoint ((p.rxRingBase ++ p.txRingBase).getD a 0#64).toNat (16 * QS p)
        ((p.rxRingBase ++ p.txRingBase).getD b 0#64).toNat (16 * QS p) = true := by
    intro a b ha hb hab
    obtain ⟨inA, regionA⟩ := ringRegions_get valid ha
    obtain ⟨inB, regionB⟩ := ringRegions_get valid hb
    have := List.pairwise_iff_getElem.mp apart a b inA inB hab
    rwa [regionA, regionB] at this
  simp only [disjoint, Bool.or_eq_true, decide_eq_true_eq, beq_iff_eq] at ordered
  rcases Nat.lt_trichotomy ring ring' with less | same | more
  · have := ordered ring ring' hr hr' less
    omega
  · subst same
    exact ⟨rfl, by omega⟩
  · have := ordered ring' ring hr' hr more
    omega

/-- No two receive slots of a ring share a byte. -/
theorem rxd_unique {q slot slot' x : Nat} (hq : q < QN p) (hs : slot < QS p) (hs' : slot' < QS p)
    (inside : inBytes (rxd p q slot) 16 x) (inside' : inBytes (rxd p q slot') 16 x) : slot = slot' := by
  rw [rxd_eq_descriptor valid hq] at inside inside'
  exact (descriptor_unique valid (by omega) (by omega) hs hs' inside inside').2

end

/-- Both words of a descriptor read as before where none of its bytes changed. -/
theorem bytesKept.load_words {m m' : Memory} {P : Nat → Prop} (h : bytesKept m m' P) {d : Addr}
    (apart : ∀ x, inBytes d 16 x → ¬ P x) : m'.load d 8 = m.load d 8 ∧ m'.load (d + 8#64) 8 = m.load (d + 8#64) 8 := by
  have first (k : Nat) (hk : k < 8) : inBytes d 16 (d + BitVec.ofNat 64 k).toNat := ⟨k, by omega, rfl⟩
  have second (k : Nat) (hk : k < 8) : inBytes d 16 (d + 8#64 + BitVec.ofNat 64 k).toNat :=
    inBytes.of_offset (j := 8) ⟨k, hk, rfl⟩ le_rfl
  exact ⟨h.load_eq le_rfl fun k hk => apart _ (first k hk), h.load_eq le_rfl fun k hk => apart _ (second k hk)⟩

end Sys2Proof.Machine
end

section
/-! A batch of `RX` (R205): what draining one slot does to the block and to memory, and the batch as a run of such turns. -/

namespace Sys2Proof.Machine

/-! ## The stock of free entries (R37, R187) -/

/-- The number of entries with a tag when one entry changes. -/
theorem State.count_setEnt {s : State} {i : Nat} (inPool : i < s.pool.ent.length) (f : Entry → Entry) (x : Tag) :
    (s.setEnt i f).pool.count x + (if (s.entry i).tag = x then 1 else 0) =
      s.pool.count x + (if (f (s.entry i)).tag = x then 1 else 0) := by
  have record : s.pool.ent[i] = s.entry i := by simp [State.entry, inPool]
  have counted : (if (s.entry i).tag = x then 1 else 0) ≤ s.pool.ent.countP (fun e => decide (e.tag = x)) := by
    split
    · next tag => exact List.one_le_countP_iff.mpr ⟨_, List.getElem_mem inPool, by simpa [record] using tag⟩
    · exact Nat.zero_le _
  rw [State.setEnt_eq_set inPool, Pool.count, Pool.count, List.countP_set inPool, record]
  simp only [decide_eq_true_eq]
  omega

/-- A lease succeeds exactly while an entry is free. -/
theorem State.lease_none_iff_count {s : State} (hasPool : s.pool.present = true) : s.lease = none ↔ s.pool.count .free = 0 := by
  rw [State.lease_none_iff hasPool, Pool.count, List.countP_eq_zero]
  simp only [decide_eq_true_eq]
  constructor
  · intro noneFree e he
    obtain ⟨i, hi, rfl⟩ := List.getElem_of_mem he
    simpa [State.entry, hi] using noneFree i hi
  · intro noneFree i hi
    simpa [State.entry, hi] using noneFree _ (List.getElem_mem hi)

theorem State.exists_lease {s : State} (hasPool : s.pool.present = true) (stock : 0 < s.pool.count .free) : ∃ j, s.lease = some j := by
  refine Option.ne_none_iff_exists'.mp fun noLease => ?_
  have := (State.lease_none_iff_count hasPool).mp noLease
  omega

/-! ## Draining one slot -/

/-- With no device step in between re-arming a descriptor is its two stores: the address first, the status second. -/
theorem State.rxSetAddr_rxRstStat_quiet {t : State} (quiet : t.quiet) (d : Addr) (a : Word) :
    (t.rxSetAddr d a).rxRstStat d = { t with mem := (t.mem.store d 8 a).store (d + 8#64) 8 0#64 } := by
  rw [State.rxSetAddr_quiet quiet]
  exact State.rxRstStat_quiet (s := { t with mem := t.mem.store d 8 a }) quiet d

section
variable {s : State} {q slot i j : Nat} {w : Word}

/-- Draining takes one entry from the stock. -/
theorem drainSlot_count (hi : i < s.pool.ent.length) (hj : j < s.pool.ent.length) (busy : (s.entry i).tag = .hw)
    (free : (s.entry j).tag = .free) : (drainSlot q slot i j w s).pool.count .free + 1 = s.pool.count .free := by
  have other : j ≠ i := by
    rintro rfl
    rw [busy] at free
    cases free
  have first := State.count_setEnt hi (fun e =>
    { e with pktLen := rxPktLen w, hdrLen := 0#64, cap := s.pool.esz.setWidth 64, tag := .swDriver }) .free
  have second := State.count_setEnt (s := s.setEnt i fun e =>
      { e with pktLen := rxPktLen w, hdrLen := 0#64, cap := s.pool.esz.setWidth 64, tag := .swDriver })
    (by simpa using hj) (fun _ => ⟨.hw, 0#64, 0#64, s.pool.esz.setWidth 64, none⟩) .free
  rw [State.entry_setEnt_ne other] at second
  simp only [busy, free, reduceCtorEq, if_true, if_false] at first second
  rw [(drainSlot_envChange q slot i j w s).pool, State.drainBlock, State.setQueue_pool]
  omega

/-- With no device step in between the accesses of a turn are its two stores. -/
theorem drainSlot_quiet (quiet : s.quiet) : drainSlot q slot i j w s = { s.drainBlock q slot i j w with
    mem := (s.mem.store (rxd s.cfg q slot) 8 (s.physOf j)).store (rxd s.cfg q slot + 8#64) 8 0#64 } := by
  unfold drainSlot
  dsimp only
  rw [State.rxSetAddr_rxRstStat_quiet]
  · simp [State.drainBlock, State.setQueue, State.setEnt, State.setTag, State.clearEnt, State.physOf, List.modify_modify_eq,
      Function.comp_def]
  · exact quiet

/-- `t` is `s` with slot `slot` of queue `q` drained (R205): its buffer `i` on the software queue with the length of `w`, the entry
`j` in its place, handed to the hardware and armed; the index one further; nothing else differs. -/
structure SlotDrained (s t : State) (q slot i j : Nat) (w : Word) : Prop where
  queue : ∀ r, t.queue r = if r = q then
      { s.queue q with
        rxq := (s.queue q).rxq ++ [i], rxBuf := (s.queue q).rxBuf.set slot (some j), rxIndex := ringNext s.cfg (s.queue q).rxIndex }
    else s.queue r
  entry : ∀ e, t.entry e =
    if e = j then ⟨.hw, 0#64, 0#64, s.pool.esz.setWidth 64, none⟩
    else if e = i then { s.entry i with pktLen := rxPktLen w, hdrLen := 0#64, cap := s.pool.esz.setWidth 64, tag := .swDriver }
    else s.entry e
  entries : t.pool.ent.length = s.pool.ent.length
  records : t.queues.length = s.queues.length
  mem : t.mem = (s.mem.store (rxd s.cfg q slot) 8 (s.physOf j)).store (rxd s.cfg q slot + 8#64) 8 0#64
  same : t = { s with queues := t.queues, pool := { s.pool with ent := t.pool.ent }, mem := t.mem }

theorem drainSlot_drained (quiet : s.quiet) (hq : q < s.queues.length) (hi : i < s.pool.ent.length) (hj : j < s.pool.ent.length) :
    SlotDrained s (drainSlot q slot i j w s) q slot i j w := by
  rw [drainSlot_quiet quiet]
  refine ⟨State.queue_setQueue (s := (s.setEnt i _).setEnt j _) hq _, fun e => ?_, ?_, ?_, rfl, rfl⟩
  · refine (State.entry_setEnt (s := s.setEnt i _) (by simpa using hj) _ e).trans ?_
    rw [State.entry_setEnt hi]
  · simp [State.drainBlock]
  · simp [State.drainBlock]

end

/-! ## The batch as a run of turns -/

/-- The buffer in the `j`-th receive slot from `rx_index[q]` on. -/
def State.rxBufferFrom (s : State) (q j : Nat) : Nat := (slotAt (s.queue q).rxBuf (slotFrom s.cfg (s.queue q).rxIndex j)).getD 0

/-- `u` is `s` after `k` turns of a batch on queue `q`: with `new j` installed at the `j`-th slot, and each turn paid from the stock. -/
structure Drains (s : State) (q k : Nat) (new : Nat → Nat) (u : State) : Prop where
  drained : s.drained u q k (s.rxBufferFrom q) new
  live : u.Live
  stock : u.pool.count .free + k = s.pool.count .free

theorem State.drained_zero {s : State} {q : Nat} (inRange : (s.queue q).rxIndex.toNat < QS s.cfg) (empty : (s.queue q).rxq = [])
    (old new : Nat → Nat) : s.drained s q 0 old new := by
  refine ⟨rfl, rfl, rfl, fun _ _ => rfl, ?_, fun j hj => absurd hj (Nat.not_lt_zero j), fun _ _ _ => rfl, fun _ _ => rfl,
    fun _ _ => rfl⟩
  rw [slotFrom_zero inRange, BitVec.ofNat_toNat, BitVec.setWidth_eq, List.range_zero, List.map_nil, ← empty]

section
variable {s u : State} {q k : Nat} {new : Nat → Nat} (h : Drains s q k new u)
include h

theorem Drains.same : u = { s with queues := u.queues, pool := { s.pool with ent := u.pool.ent }, mem := u.mem } := h.drained.1
theorem Drains.cfg : u.cfg = s.cfg := by rw [h.same]
theorem Drains.quiet (quiet : s.quiet) : u.quiet := by rw [h.same]; exact quiet
theorem Drains.present : u.pool.present = s.pool.present := by rw [h.same]

theorem Drains.rxIndex_toNat (pos : 0 < QS s.cfg) : (u.queue q).rxIndex.toNat = slotFrom s.cfg (s.queue q).rxIndex k := by
  obtain ⟨-, -, -, -, record, -⟩ := h.drained
  rw [record]
  exact slotFrom_index_toNat pos k

theorem Drains.rxq_eq : (u.queue q).rxq = (List.range k).map (s.rxBufferFrom q) := by
  obtain ⟨-, -, -, -, record, -⟩ := h.drained
  rw [record]

/-- Within one lap the next slot holds what it held. -/
theorem Drains.slotAt_next (hk : k < QS s.cfg) : slotAt (u.queue q).rxBuf (slotFrom s.cfg (s.queue q).rxIndex k) =
    slotAt (s.queue q).rxBuf (slotFrom s.cfg (s.queue q).rxIndex k) := by
  obtain ⟨-, -, -, -, -, -, slotsKept, -⟩ := h.drained
  exact slotsKept _ (slotFrom_lt (by omega) k) fun _ _ => slotFrom_ne hk (by omega) (by omega)

/-- Within one lap the next slot has the status it had. -/
theorem Drains.rxHead_next (valid : validParams s.cfg = true) (hq : q < QN s.cfg) (hk : k < QS s.cfg) : u.rxHead q = s.rxStatus q k := by
  have pos : 0 < QS s.cfg := by omega
  obtain ⟨-, -, -, -, -, -, -, -, bytes⟩ := h.drained
  rw [State.rxHead, h.rxIndex_toNat pos, h.cfg]
  refine (bytes.load_words ?_).2
  rintro x inside ⟨m, hm, inside'⟩
  exact slotFrom_ne hk (by omega) (by omega) (rxd_unique valid hq (slotFrom_lt pos k) (slotFrom_lt pos m) inside inside')

/-- One lap on the batch is back at a slot it has re-armed. -/
theorem Drains.rxHead_lap (whole : k = QS s.cfg) (pos : 0 < QS s.cfg) : u.rxHead q = 0#64 := by
  obtain ⟨-, -, -, -, -, slots, -⟩ := h.drained
  obtain ⟨-, -, -, -, -, status, -⟩ := slots 0 (by omega)
  rw [State.rxHead, h.rxIndex_toNat pos, h.cfg, whole, slotFrom_QS]
  exact status

/-- The buffer `i` of the next slot and the entry `j` that is leased for it: `i` is with the hardware and `j` is free, and neither was
in an earlier turn of the batch. -/
structure Drains.Next (s u : State) (q k : Nat) (new : Nat → Nat) (i j : Nat) : Prop where
  held : slotAt (s.queue q).rxBuf (slotFrom s.cfg (s.queue q).rxIndex k) = some i
  inPool : i < u.pool.ent.length ∧ j < u.pool.ent.length
  busy : (u.entry i).tag = .hw
  free : (u.entry j).tag = .free
  keptI : u.entry i = s.entry i
  keptJ : u.entry j = s.entry j
  notOld : ∀ m < k, i ≠ s.rxBufferFrom q m ∧ j ≠ s.rxBufferFrom q m
  notNew : ∀ m < k, i ≠ new m ∧ j ≠ new m

theorem Drains.next {i j : Nat} (inv : s.Inv) (ready : ringReady q s) (hk : k < QS s.cfg)
    (held : slotAt (s.queue q).rxBuf (slotFrom s.cfg (s.queue q).rxIndex k) = some i) (lease : u.lease = some j) :
    Drains.Next s u q k new i j := by
  have ⟨hs, _, _, inRange⟩ := ready
  obtain ⟨-, -, records, -, -, slots, -, entriesKept, -⟩ := h.drained
  have hq : q < s.queues.length := (inv.record inRange).1
  have hwS : (s.entry i).tag = .hw := State.owned_hw_of_rxBuf (inv.live hs).owned hq held
  have hwU : (u.entry i).tag = .hw := State.owned_hw_of_rxBuf h.live.owned (records ▸ hq) ((h.slotAt_next hk).trans held)
  obtain ⟨-, inPool, freeU⟩ := State.lease_some lease
  have notOld (m : Nat) (hm : m < k) : i ≠ s.rxBufferFrom q m ∧ j ≠ s.rxBufferFrom q m := by
    obtain ⟨-, -, -, -, -, -, old⟩ := slots m hm
    constructor <;> rintro rfl
    · rw [old] at hwU; cases hwU
    · rw [old] at freeU; cases freeU
  have notNew (m : Nat) (hm : m < k) : i ≠ new m ∧ j ≠ new m := by
    obtain ⟨-, -, free, fresh, -⟩ := slots m hm
    constructor <;> rintro rfl
    · rw [free] at hwS; cases hwS
    · rw [fresh] at freeU; cases freeU
  exact {
    held, busy := hwU, free := freeU, notOld, notNew
    inPool := ⟨State.lt_of_tag_eq hwU nofun, inPool⟩
    keptI := entriesKept i fun m hm => ⟨(notOld m hm).1, (notNew m hm).1⟩
    keptJ := entriesKept j fun m hm => ⟨(notOld m hm).2, (notNew m hm).2⟩ }

/-- A turn of the batch, for what it drains. -/
theorem Drains.drained_turn {i j : Nat} (inv : s.Inv) (quiet : s.quiet) (hq : q < QN s.cfg) (hk : k < QS s.cfg)
    (next : Drains.Next s u q k new i j) : s.drained (drainSlot q (slotFrom s.cfg (s.queue q).rxIndex k) i j (s.rxStatus q k) u) q (k + 1)
      (s.rxBufferFrom q) (Function.update new k j) := by
  have pos : 0 < QS s.cfg := by omega
  obtain ⟨same, entries, records, others, record, slots, slotsKept, entriesKept, bytes⟩ := h.drained
  have ⟨held, ⟨inPoolI, inPoolJ⟩, busy, free, keptI, keptJ, notOld, notNew⟩ := next
  have oldK : s.rxBufferFrom q k = i := by rw [State.rxBufferFrom, held]; rfl
  have ij : i ≠ j := by
    rintro rfl
    rw [busy] at free
    cases free
  have length : slotFrom s.cfg (s.queue q).rxIndex k < (u.queue q).rxBuf.length := lt_length_of_slotAt ((h.slotAt_next hk).trans held)
  obtain ⟨queue, entry, entries', records', mem, frame⟩ := drainSlot_drained (slot := slotFrom s.cfg (s.queue q).rxIndex k)
    (w := s.rxStatus q k) (h.quiet quiet) (records ▸ (inv.record hq).1 : q < u.queues.length) inPoolI inPoolJ
  generalize drainSlot q (slotFrom s.cfg (s.queue q).rxIndex k) i j (s.rxStatus q k) u = t at *
  have esz : u.pool.esz = s.pool.esz := by rw [same]
  have phys : u.physOf j = s.physOf j := by rw [State.physOf, same]; rfl
  obtain ⟨address, status, outside⟩ := u.mem.store_words (rxd s.cfg q (slotFrom s.cfg (s.queue q).rxIndex k)) (s.physOf j) 0#64
  rw [h.cfg, phys] at mem
  rw [← mem] at address status outside
  have record' := queue q
  rw [if_pos rfl, h.cfg] at record'
  refine ⟨by rw [frame, same], entries'.trans entries, records'.trans records, fun r hr => ?others, ?record, fun m hm => ?slots,
    fun m hm other => ?slotsKept, fun e other => ?entriesKept, ?bytes⟩
  case others => rw [queue, if_neg hr, others r hr]
  case record =>
    rw [record', h.rxq_eq, List.range_succ, List.map_append, List.map_singleton, oldK, record]
    dsimp only
    rw [ringNext_slotFrom pos]
  case slots =>
    rcases Nat.lt_succ_iff_lt_or_eq.mp hm with before | rfl
    · obtain ⟨heldM, newM, freeM, fresh, addressM, statusM, oldM⟩ := slots m before
      have apart := slotFrom_ne (p := s.cfg) (i := (s.queue q).rxIndex) (j := m) (by omega) hk (by omega)
      have words := outside.load_words (d := rxd s.cfg q (slotFrom s.cfg (s.queue q).rxIndex m)) fun x inside inside' =>
        apart (rxd_unique inv.valid hq (slotFrom_lt pos m) (slotFrom_lt pos k) inside inside')
      rw [Function.update_of_ne (by omega), record', slotAt_set_ne apart, entry, if_neg (notNew m before).2.symm,
        if_neg (notNew m before).1.symm, entry, if_neg (notOld m before).2.symm, if_neg (notOld m before).1.symm, words.1, words.2]
      exact ⟨heldM, newM, freeM, fresh, addressM, statusM, oldM⟩
    · rw [Function.update_self, oldK, record', slotAt_set_self length, entry, if_pos rfl, entry, if_neg ij, if_pos rfl, esz, keptI,
        rxPktLen, bits_eq_shift_and_mask]
      exact ⟨held, rfl, keptJ ▸ free, rfl, address, status, rfl⟩
  case slotsKept =>
    rw [record', slotAt_set_ne (other k (by omega))]
    exact slotsKept m hm fun x hx => other x (by omega)
  case entriesKept =>
    have last := other k (by omega)
    rw [Function.update_self, oldK] at last
    rw [entry, if_neg last.2, if_neg last.1]
    refine entriesKept e fun m hm => ?_
    have := other m (by omega)
    rwa [Function.update_of_ne (by omega)] at this
  case bytes =>
    refine (bytes.mono fun x => ?_).trans (outside.mono fun x inside => ⟨k, by omega, inside⟩)
    rintro ⟨m, hm, inside⟩
    exact ⟨m, by omega, inside⟩

theorem Drains.turn {i j : Nat} (inv : s.Inv) (quiet : s.quiet) (ready : ringReady q s) (hk : k < QS s.cfg) (room : k < rxBatchSize)
    (held : slotAt (s.queue q).rxBuf (slotFrom s.cfg (s.queue q).rxIndex k) = some i) (lease : u.lease = some j) :
    Drains s q (k + 1) (Function.update new k j) (drainSlot q (slotFrom s.cfg (s.queue q).rxIndex k) i j (s.rxStatus q k) u) := by
  have ⟨_, family, open', inRange⟩ := ready
  have next := h.next inv ready hk held lease
  refine ⟨h.drained_turn inv quiet inRange hk next, ?live, ?stock⟩
  case live =>
    have ring : u.ringOpen q := by
      rw [State.ringOpen, h.same]
      exact ⟨family, open', inRange⟩
    have space : (u.queue q).rxq.length < rxBatchSize := by rwa [h.rxq_eq, List.length_map, List.length_range]
    exact (drainSlot_moves (g := True) ring ((h.slotAt_next hk).trans held) lease space _).live trivial h.live
  case stock =>
    have taken := drainSlot_count (q := q) (slot := slotFrom s.cfg (s.queue q).rxIndex k) (w := s.rxStatus q k) next.inPool.1
      next.inPool.2 next.busy next.free
    have := h.stock
    omega

end

/-! ## The whole batch -/

/-- In a classic ring at work every receive slot holds a buffer (R40). -/
theorem State.Inv.rx_buffer {s : State} (inv : s.Inv) {q slot : Nat} (ready : ringReady q s) (hs : slot < QS s.cfg) :
    ∃ i, slotAt (s.queue q).rxBuf slot = some i := by
  have ⟨running, family, open', inRange⟩ := ready
  obtain ⟨hq, rx, -⟩ := inv.record inRange
  refine Option.ne_none_iff_exists'.mp (inv.fullRx running family open' _ (State.queue_mem hq) _ ?_)
  rw [slotAt, List.getD_eq_getElem _ _ (rx ▸ hs)]
  exact List.getElem_mem _

/-- After each of the first `k` turns of a batch that finds `k` packets (R205). -/
theorem rxBatch_turns {q k : Nat} {s : State} (inv : s.Inv) (quiet : s.quiet) (ready : ringReady q s) (empty : (s.queue q).rxq = [])
    (batch : k ≤ rxBatchSize) (lap : k ≤ QS s.cfg) (stock : k ≤ s.pool.count .free)
    (packets : ∀ j < k, (s.rxStatus q j).getLsbD 0 = true ∧ (s.rxStatus q j).getLsbD 1 = true) :
    ∃ u new, Drains s q k new u ∧ rxBatch q rxBatchSize 0 s = rxBatch q (rxBatchSize - k) k u := by
  have ⟨running, family, open', inRange⟩ := ready
  induction k with
  | zero =>
    obtain ⟨-, -, -, rxIndex, -⟩ := inv.record inRange
    exact ⟨s, id, ⟨State.drained_zero rxIndex empty _ _, inv.live running, rfl⟩, rfl⟩
  | succ k ih =>
    obtain ⟨u, new, drains, run⟩ := ih (by omega) (by omega) (by omega) fun j hj => packets j (by omega)
    have pos : 0 < QS s.cfg := by omega
    have hasPool : u.pool.present = true := drains.present.trans (inv.present_of_inited open')
    obtain ⟨i, held⟩ := inv.rx_buffer ready (slotFrom_lt (i := (s.queue q).rxIndex) pos k)
    obtain ⟨j, lease⟩ := State.exists_lease hasPool (by have := drains.stock; omega)
    have head := drains.rxHead_next inv.valid inRange (by omega)
    obtain ⟨done, eop⟩ := packets k (by omega)
    refine ⟨_, _, drains.turn inv quiet ready (by omega) (by omega) held lease, ?_⟩
    rw [run, show rxBatchSize - k = rxBatchSize - (k + 1) + 1 by omega,
      rxBatch_drain (drains.quiet quiet) (head ▸ done) (head ▸ eop) lease
        (drains.rxIndex_toNat pos ▸ (drains.slotAt_next (by omega)).trans held),
      head, drains.rxIndex_toNat pos]

/-- A batch that has come to its end, to the end of the lap, to a slot that is not done or to the end of the stock, ends there (R205). -/
theorem Drains.rxBatch_ended {s u : State} {q k : Nat} {new : Nat → Nat} (drains : Drains s q k new u) (inv : s.Inv) (quiet : s.quiet)
    (ready : ringReady q s) (lap : k ≤ QS s.cfg) (ends : k = rxBatchSize ∨ k = QS s.cfg ∨ (s.rxStatus q k).getLsbD 0 = false ∨
      ((s.rxStatus q k).getLsbD 1 = true ∧ s.pool.count .free = k)) :
    rxBatch q (rxBatchSize - k) k u = (.ended, k, u) := by
  have ⟨_, _, open', inRange⟩ := ready
  have quietU := drains.quiet quiet
  by_cases batch : k = rxBatchSize
  · rw [batch, Nat.sub_self]
    rfl
  by_cases whole : k = QS s.cfg
  · have head := drains.rxHead_lap whole (validParams_QS_pos inv.valid)
    exact rxBatch_notDone quietU (by rw [head]; rfl)
  have head := drains.rxHead_next inv.valid inRange (by omega)
  rw [← head] at ends
  cases done : (u.rxHead q).getLsbD 0 with
  | false => exact rxBatch_notDone quietU done
  | true =>
    obtain ⟨eop, stock⟩ : (u.rxHead q).getLsbD 1 = true ∧ s.pool.count .free = k :=
      ((ends.resolve_left batch).resolve_left whole).resolve_left (by rw [done]; exact nofun)
    have hasPool : u.pool.present = true := drains.present.trans (inv.present_of_inited open')
    exact rxBatch_noStock quietU done eop ((State.lease_none_iff_count hasPool).mpr (by have := drains.stock; omega))

/-- Settles O27: after `k` turns the packets wait in ring order, and the slot that the batch has come to says how it ends. -/
theorem crRxDrainsInOrder : Obligations.CrRxDrainsInOrder := by
  intro q k s inv quiet ready empty some batch lap stock packets op hop
  have ⟨_, _, _, inRange⟩ := ready
  obtain ⟨-, -, -, rxIndex, -⟩ := inv.record inRange
  obtain ⟨u, new, drains, run⟩ := rxBatch_turns inv quiet ready empty batch lap stock packets
  have done : ¬ (s.rxHead q).getLsbD 0 = false := by
    obtain ⟨first, -⟩ := packets 0 some
    rw [State.rxStatus, slotFrom_zero rxIndex] at first
    exact Bool.not_eq_false _ ▸ first
  have body := (exec_classicRx ready hop).trans (crRxBody_of_empty quiet empty)
  rw [if_neg done, run] at body
  refine ⟨u, s.rxBufferFrom q, new, drains.drained, fun ends => ?_, fun short within isDone noEop => ?_⟩
  · rw [drains.rxBatch_ended inv quiet ready lap ends] at body
    have front : (u.queue q).rxq = s.rxBufferFrom q 0 :: (List.range (k - 1)).map (fun j => s.rxBufferFrom q (j + 1)) := by
      obtain ⟨n, rfl⟩ := Nat.exists_eq_add_of_le' some
      rw [drains.rxq_eq, List.range_succ_eq_map, List.map_cons, List.map_map]
      rfl
    exact body.trans ((if_neg (Nat.ne_of_gt some)).trans (popAndEmit_eq front))
  · have head := drains.rxHead_next inv.valid inRange within
    have fuel : rxBatchSize - k = rxBatchSize - k - 1 + 1 := by
      have : rxBatchSize = 64 := rfl
      omega
    rw [fuel, rxBatch_noEop (drains.quiet quiet) (head ▸ isDone) (head ▸ noEop)] at body
    exact body

end Sys2Proof.Machine
end

section
/-! `CR.INIT` (R201) slot by slot: which slots hold which buffers when it has come to a slot, under every schedule of device steps; and
with no device step in between what it has left in memory. -/

namespace Sys2Proof.Machine

/-! ## The loops -/

/-- The indices and the software queue of queue `q`, and the device's next slot of it, as `CR.INIT` begins with them (R201, R280). -/
def restartQueue (q : Nat) (s : State) : State :=
  { s.setQueue q (fun r => { r with rxIndex := 0#16, txIndex := 0#16, txClean := 0#16, rxq := [] }) with
    nic := { s.nic with rxNext := s.nic.rxNext.set q 0#16 } }

/-- What holds at the end of `CR.INIT`'s loops. `P z c d` says that `z` queues have been restarted, `c` receive slots armed and `d` transmit
slots cleared, the slots counted from queue to queue. -/
theorem initQueues_induct {p : Params} {P : Nat → Nat → Nat → State → Prop} {s : State}
    (cfg : ∀ {z c d t}, P z c d t → t.cfg = p) (start : P 0 0 0 s)
    (restart : ∀ q < QN p, ∀ t, P q (q * QS p) (q * QS p) t → P (q + 1) (q * QS p) (q * QS p) (restartQueue q t))
    (arm : ∀ q < QN p, ∀ k < QS p, ∀ t, P (q + 1) (q * QS p + k) (q * QS p) t →
      P (q + 1) (q * QS p + k + 1) (q * QS p) (armRxSlot q t k))
    (clear : ∀ q < QN p, ∀ k < QS p, ∀ t, P (q + 1) (q * QS p + QS p) (q * QS p + k) t →
      P (q + 1) (q * QS p + QS p) (q * QS p + k + 1) (clearTxSlot q t k)) :
    P (QN p) (QN p * QS p) (QN p * QS p) ((List.range (QN p)).foldl initQueue s) := by
  refine foldl_range_induct (P := fun q t => P q (q * QS p) (q * QS p) t) (by simpa using start) fun q hq t ht => ?_
  have armed := foldl_range_induct (P := fun k u => P (q + 1) (q * QS p + k) (q * QS p) u) (restart q hq t ht) (arm q hq)
  have cleared := foldl_range_induct (P := fun k u => P (q + 1) (q * QS p + QS p) (q * QS p + k) u) armed (clear q hq)
  rw [Nat.succ_mul]
  unfold initQueue
  rw [cfg ht]
  exact cleared

/-- Slots counted from queue to queue. -/
theorem slotNumber_inj {n q r j k : Nat} (hj : j < n) (hk : k < n) (h : q * n + j = r * n + k) : q = r ∧ j = k := by
  have pos : 0 < n := by omega
  rw [Nat.mul_comm q, Nat.mul_comm r] at h
  have same : q = r := by
    have := congrArg (· / n) h
    simpa [Nat.mul_add_div pos, Nat.div_eq_of_lt hj, Nat.div_eq_of_lt hk] using this
  subst same
  exact ⟨rfl, by omega⟩

theorem slotNumber_lt {n m q j : Nat} (hq : q < m) (hj : j < n) : q * n + j < m * n := by
  have := Nat.mul_le_mul_right n (Nat.succ_le_of_lt hq)
  rw [Nat.succ_mul] at this
  omega

/-! ## The pool that `CR.INIT` creates (R181, R51) -/

theorem State.askBacking_sched (s : State) (bytes : Nat) : (s.askBacking bytes).2.env.sched = s.env.sched := by
  unfold State.askBacking
  split <;> rfl

/-- What a grant leaves before the fresh pool takes its place: the world around the block, with new bytes in the pool's place only. -/
structure Granted (s : State) (bytes : Nat) (u : State) : Prop where
  around : EnvChange s u
  nic : u.nic = s.nic
  transport : u.transport = s.transport
  sched : u.env.sched = s.env.sched
  bytes : bytesKept s.mem u.mem (inBytes s.cfg.poolPBase bytes)

theorem State.poolCreate_granted {s : State} {count size : Nat} (h : (s.poolCreate count size).1 = true) :
    ∃ u, Granted s (count * size) u ∧ s.poolCreate count size = (true, { u with pool := Pool.fresh count size }) := by
  rcases s.poolCreate_cases count size with ⟨e, -⟩ | ⟨-, -, -, ⟨-, e⟩ | ⟨answer, e⟩⟩
  · rw [e] at h; cases h
  · rw [e] at h; cases h
  obtain ⟨-, kept, -⟩ := State.drawContents_of_granted (Prod.ext answer rfl : s.askBacking (count * size) = (true, _))
  have frame := s.askBacking_frame (count * size)
  exact ⟨_, ⟨(s.askBacking_envChange _).trans (State.drawContents_envChange _ _), by rw [frame]; rfl, by rw [frame]; rfl,
    s.askBacking_sched _, kept⟩, e⟩

/-- `CR.INIT` behind its checks, where it ends with OK (R201). -/
theorem crInitBody_ok {s : State} (ok : (crInitBody s).st = 0#8) : QN s.cfg * QS s.cfg ≤ s.cfg.poolN.toNat ∧
    (s.poolCreate s.cfg.poolN.toNat s.cfg.poolEsz.toNat).1 = true := by
  by_cases small : s.cfg.poolN.toNat < QN s.cfg * QS s.cfg
  · rw [crInitBody_small small] at ok
    exact absurd ok (finish_st_ne nofun)
  refine ⟨Nat.not_lt.mp small, ?_⟩
  by_contra refused
  rw [crInitBody_refused (Nat.not_lt.mp small) (Prod.ext (by simpa using refused) rfl)] at ok
  exact absurd ok (finish_st_ne nofun)

theorem crInitBody_granted {s u : State} (enough : QN s.cfg * QS s.cfg ≤ s.cfg.poolN.toNat)
    (granted : s.poolCreate s.cfg.poolN.toNat s.cfg.poolEsz.toNat = (true, u)) :
    crInitBody s = { (List.range (QN s.cfg)).foldl initQueue u with inited := true, st := 0#8 } := by
  rw [crInitBody, if_neg (Nat.not_lt.mpr enough), granted]
  rfl

theorem exec_crInit {s : State} {op : Instr} (hs : s.halted = false) (family : s.cfg.family = .classic)
    (hop : op ∈ [Instr.crInit, .devInit]) : exec op s = .next ((initCheck .classic s).getD (crInitBody s)) :=
  exec_of_forms hop rfl (byFamily_classic hs family execCrInit execTrInit)

/-! ## The block while `CR.INIT` fills its rings -/

/-- An entry as `CR.INIT` hands it to the hardware. -/
def handedOver (p : Params) : Entry := ⟨.hw, 0#64, 0#64, p.poolEsz.setWidth 64, none⟩

/-- `CR.INIT` begun at `s` has restarted the first `z` queues and armed the first `c` receive slots, each with an entry of its own. -/
structure Filled (s : State) (z c : Nat) (t : State) : Prop where
  same : t = { s with
    queues := t.queues, pool := ⟨true, s.cfg.poolN, s.cfg.poolEsz, t.pool.ent⟩
    mem := t.mem, nic := t.nic, transport := t.transport, env := t.env }
  entries : t.pool.ent.length = s.cfg.poolN.toNat
  records : t.queues.length = QN s.cfg
  slots : ∀ q < QN s.cfg, (t.queue q).rxBuf.length = QS s.cfg ∧ (t.queue q).txBuf = List.replicate (QS s.cfg) none
  restarted : ∀ q < z, q < QN s.cfg →
    (t.queue q).rxIndex = 0#16 ∧ (t.queue q).txIndex = 0#16 ∧ (t.queue q).txClean = 0#16 ∧ (t.queue q).rxq = []
  armed : ∀ q < QN s.cfg, ∀ j < QS s.cfg, q * QS s.cfg + j < c → ∃ i, slotAt (t.queue q).rxBuf j = some i ∧
    t.entry i = handedOver s.cfg ∧ (s.cfg.pick = .least → i = q * QS s.cfg + j)
  hardware : t.pool.count .hw = c
  stock : t.pool.count .free + c = s.cfg.poolN.toNat
  least : s.cfg.pick = .least → ∀ e < s.cfg.poolN.toNat, ((t.entry e).tag = .free ↔ c ≤ e)

section
variable {s t u : State} {z c q k : Nat}

theorem Filled.cfg (h : Filled s z c t) : t.cfg = s.cfg := by rw [h.same]
theorem Filled.present (h : Filled s z c t) : t.pool.present = true := by rw [h.same]
theorem Filled.esz (h : Filled s z c t) : t.pool.esz = s.cfg.poolEsz := by rw [h.same]

theorem Filled.envChange (h : Filled s z c t) (e : EnvChange t u) : Filled s z c u where
  same := by rw [e.same, h.same]
  entries := by rw [e.pool]; exact h.entries
  records := by rw [e.queues]; exact h.records
  slots q hq := by rw [e.queue]; exact h.slots q hq
  restarted q hz hq := by rw [e.queue]; exact h.restarted q hz hq
  armed q hq j hj before := by
    obtain ⟨i, held, entry, least⟩ := h.armed q hq j hj before
    exact ⟨i, by rw [e.queue]; exact held, by rw [e.entry]; exact entry, least⟩
  hardware := by rw [e.pool]; exact h.hardware
  stock := by rw [e.pool]; exact h.stock
  least pick x hx := by rw [e.entry]; exact h.least pick x hx

theorem Pool.count_fresh (count size : Nat) (x : Tag) : (Pool.fresh count size).count x = if x = .free then count else 0 := by
  rw [Pool.count, Pool.fresh, List.countP_replicate]
  exact if_congr (by rw [decide_eq_true_eq, eq_comm]) rfl rfl

/-- Before the loops the pool is fresh and every slot is empty. -/
theorem Filled.start (inv : s.Inv) (hs : s.halted = false) (closed : s.inited = false) (around : EnvChange s u) :
    Filled s 0 0 { u with pool := Pool.fresh s.cfg.poolN.toNat s.cfg.poolEsz.toNat } := by
  have queue (q : Nat) : State.queue { u with pool := Pool.fresh s.cfg.poolN.toNat s.cfg.poolEsz.toNat } q = s.queue q := around.queue q
  have free (e : Nat) : (State.entry { u with pool := Pool.fresh s.cfg.poolN.toNat s.cfg.poolEsz.toNat } e).tag = .free := by
    simp only [State.entry, Pool.fresh, List.getD, List.getElem?_replicate]
    split <;> rfl
  refine ⟨?same, List.length_replicate, ?records, fun q hq => ?slots, fun q hq => absurd hq (Nat.not_lt_zero q),
    fun q _ j _ before => absurd before (Nat.not_lt_zero _), ?hardware, ?stock, fun _ e _ => ?least⟩
  case same =>
    rw [around.same, Pool.fresh, BitVec.ofNat_toNat, BitVec.ofNat_toNat, BitVec.setWidth_eq, BitVec.setWidth_eq]
  case records => exact (congrArg List.length around.queues).trans inv.sizes.1
  case slots =>
    obtain ⟨inQueues, rx, tx, -⟩ := inv.record hq
    have blank := (inv.live hs).queuesIdle (Or.inr closed) _ (State.queue_mem inQueues)
    rw [queue]
    exact ⟨rx, List.eq_replicate_iff.mpr ⟨tx, blank.2.2⟩⟩
  case hardware => exact Pool.count_fresh _ _ .hw
  case stock => exact Pool.count_fresh _ _ .free
  case least => simp only [free, Nat.zero_le]

theorem Filled.restart (h : Filled s q c t) (hq : q < QN s.cfg) : Filled s (q + 1) c (restartQueue q t) := by
  have queue (r : Nat) : (restartQueue q t).queue r =
      if r = q then { t.queue q with rxIndex := 0#16, txIndex := 0#16, txClean := 0#16, rxq := [] } else t.queue r :=
    State.queue_setQueue (h.records ▸ hq) _ r
  have buffers (r : Nat) : ((restartQueue q t).queue r).rxBuf = (t.queue r).rxBuf ∧
      ((restartQueue q t).queue r).txBuf = (t.queue r).txBuf := by
    rw [queue]
    split
    · next e => subst e; exact ⟨rfl, rfl⟩
    · exact ⟨rfl, rfl⟩
  refine ⟨by rw [restartQueue, h.same]; rfl, h.entries, ?records, fun r hr => ?slots, fun r hz hr => ?restarted,
    fun r hr j hj before => ?armed, h.hardware, h.stock, h.least⟩
  case records => exact (List.length_modify ..).trans h.records
  case slots => rw [(buffers r).1, (buffers r).2]; exact h.slots r hr
  case restarted =>
    rw [queue]
    split
    · exact ⟨rfl, rfl, rfl, rfl⟩
    · exact h.restarted r (by omega) hr
  case armed => rw [(buffers r).1]; exact h.armed r hr j hj before

/-- There is an entry for the next slot. -/
theorem Filled.lease (h : Filled s z c t) (more : c < s.cfg.poolN.toNat) : ∃ i, t.lease = some i :=
  State.exists_lease h.present (by have := h.stock; omega)

/-- With `PICK` = least index the next entry is leased next. -/
theorem Filled.lease_eq {i : Nat} (h : Filled s z c t) (lease : t.lease = some i) (more : c < s.cfg.poolN.toNat)
    (pick : s.cfg.pick = .least) : i = c := by
  obtain ⟨-, inPool, free⟩ := State.lease_some lease
  have before := State.lease_least lease (h.cfg.symm ▸ pick)
  have lower := (h.least pick i (h.entries ▸ inPool)).mp free
  have upper : ¬ c < i := fun less => before c less ((h.least pick c more).mpr le_rfl)
  omega

theorem State.armed_queue {i : Nat} (hq : q < t.queues.length) (r : Nat) : (t.armed q k i).queue r =
    if r = q then { t.queue q with rxBuf := (t.queue q).rxBuf.set k (some i) } else t.queue r :=
  State.queue_setQueue (s := t.setEnt i _) hq _ r

theorem State.armed_entry {i : Nat} (hi : i < t.pool.ent.length) (e : Nat) : (t.armed q k i).entry e =
    if e = i then ⟨.hw, 0#64, 0#64, t.pool.esz.setWidth 64, none⟩ else t.entry e :=
  State.entry_setEnt hi _ e

theorem Filled.armed_next {i : Nat} (h : Filled s z (q * QS s.cfg + k) t) (hq : q < QN s.cfg) (hk : k < QS s.cfg)
    (more : q * QS s.cfg + k < s.cfg.poolN.toNat) (lease : t.lease = some i) : Filled s z (q * QS s.cfg + k + 1) (t.armed q k i) := by
  obtain ⟨-, inPool, free⟩ := State.lease_some lease
  have hq' : q < t.queues.length := h.records ▸ hq
  have queue := State.armed_queue (t := t) (k := k) (i := i) hq'
  have entry := State.armed_entry (t := t) (q := q) (k := k) inPool
  have count (x : Tag) := State.count_setEnt inPool (fun _ => ⟨.hw, 0#64, 0#64, t.pool.esz.setWidth 64, none⟩) x
  refine ⟨by rw [State.armed, h.same]; rfl, ?entries, ?records, fun r hr => ?slots, fun r hz hr => ?restarted,
    fun r hr j hj before => ?armed, ?hardware, ?stock, fun pick e he => ?least⟩
  case entries => simpa [State.armed] using h.entries
  case records => simpa [State.armed] using h.records
  case slots =>
    have := h.slots r hr
    rw [queue]
    split
    · next e => subst e; simpa using this
    · exact this
  case restarted =>
    have := h.restarted r hz hr
    rw [queue]
    split
    · next e => subst e; exact this
    · exact this
  case armed =>
    by_cases here : r * QS s.cfg + j = q * QS s.cfg + k
    · obtain ⟨rfl, rfl⟩ := slotNumber_inj hj hk here
      refine ⟨i, ?_, ?_, fun pick => h.lease_eq lease more pick⟩
      · rw [queue, if_pos rfl]
        exact slotAt_set_self ((h.slots r hr).1.symm ▸ hk) _
      · rw [entry, if_pos rfl, h.esz]
        rfl
    · obtain ⟨i', held, record, least⟩ := h.armed r hr j hj (by omega)
      have other : i' ≠ i := by
        rintro rfl
        rw [record] at free
        cases free
      refine ⟨i', ?_, by rw [entry, if_neg other, record], least⟩
      rw [queue]
      split
      · next e =>
        subst e
        rwa [slotAt_set_ne (by omega)]
      · exact held
  case hardware =>
    have moved := count .hw
    have before := h.hardware
    simp only [free, reduceCtorEq, if_true, if_false] at moved
    simp only [State.armed, State.setQueue_pool]
    omega
  case stock =>
    have moved := count .free
    have before := h.stock
    simp only [free, reduceCtorEq, if_true, if_false] at moved
    simp only [State.armed, State.setQueue_pool]
    omega
  case least =>
    have := h.lease_eq lease more pick
    have := h.least pick e he
    rw [entry]
    split
    · simp only [reduceCtorEq, false_iff]
      omega
    · rw [this]
      omega

theorem Filled.arm (h : Filled s z (q * QS s.cfg + k) t) (hq : q < QN s.cfg) (hk : k < QS s.cfg)
    (more : q * QS s.cfg + k < s.cfg.poolN.toNat) : Filled s z (q * QS s.cfg + k + 1) (armRxSlot q t k) := by
  obtain ⟨i, lease⟩ := h.lease more
  exact (h.armed_next hq hk more lease).envChange (armRxSlot_of_lease_some lease)

/-- Clearing a transmit slot finds it empty. -/
theorem Filled.clearTx_same (h : Filled s z c t) (hq : q < QN s.cfg) (slot : Nat) :
    t.setQueue q (fun r => { r with txBuf := r.txBuf.set slot none }) = t := by
  have empty : (t.queue q).txBuf.set slot none = (t.queue q).txBuf := by
    rw [(h.slots q hq).2, List.set_replicate_self]
  have hq' : q < t.queues.length := h.records ▸ hq
  rw [State.setQueue_eq_set, empty, State.queue, List.getD_eq_getElem _ _ hq', List.set_getElem_self]

theorem Filled.clearTx (h : Filled s z c t) (hq : q < QN s.cfg) (slot : Nat) : Filled s z c (clearTxSlot q t slot) := by
  have e := clearTxSlot_envChange q slot t
  rw [h.clearTx_same hq] at e
  exact h.envChange e

end

/-- Settles O20: the loops arm the slots one after the other, each with an entry of its own, and the stock lasts to the end. -/
theorem crInitFillsRings : Obligations.CrInitFillsRings := by
  intro s inv hs family closed absent enough nonzero answer op hop
  have pos : 0 < s.cfg.poolEsz.toNat := Nat.pos_of_ne_zero fun zero => nonzero (BitVec.eq_of_toNat_eq zero)
  have asked := State.poolCreate_asked s.cfg.poolN.isLt s.cfg.poolEsz.isLt (Or.inr pos) (Prod.ext answer rfl : s.askBacking _ = (true, _))
  obtain ⟨u, granted, created⟩ := State.poolCreate_granted (by rw [asked]; rfl :
    (s.poolCreate s.cfg.poolN.toNat s.cfg.poolEsz.toNat).1 = true)
  have filled := initQueues_induct (p := s.cfg) (P := fun z c _ t => Filled s z c t) (fun h => h.cfg)
    (Filled.start inv hs closed granted.around) (fun q hq t h => h.restart hq)
    (fun q hq k hk t h => h.arm hq hk ((slotNumber_lt hq hk).trans_le enough)) (fun q hq k _ t h => h.clearTx hq k)
  refine ⟨_, exec_crInit hs family hop, ?_⟩
  rw [(initCheck_none _ s).mpr ⟨hs, family, closed, absent⟩, Option.getD_none, crInitBody_granted enough created]
  generalize (List.range (QN s.cfg)).foldl initQueue _ = t at filled
  refine ⟨by rw [filled.same], filled.present, by rw [filled.same], filled.esz, filled.records, filled.hardware,
    Nat.eq_sub_of_add_eq filled.stock, fun q hq => ?_⟩
  obtain ⟨rxIndex, txIndex, txClean, rxq⟩ := filled.restarted q hq hq
  obtain ⟨rx, tx⟩ := filled.slots q hq
  exact ⟨rxIndex, txIndex, txClean, rxq, rx, tx, fun j hj => filled.armed q hq j hj (slotNumber_lt hq hj)⟩

end Sys2Proof.Machine
end

section
/-! What `CR.INIT` leaves in memory with no device step in between (R201): every receive descriptor armed, every transmit descriptor zero,
and no other byte changed outside the new pool. -/

namespace Sys2Proof.Machine

/-! ## The accesses of one slot (R141, R142, R161) -/

/-- The words of a receive descriptor that is cleared and then given its address. -/
theorem Memory.armed_words (m : Memory) (d : Addr) (a : Word) :
    (((m.store d 8 0#64).store (d + 8#64) 8 0#64).store d 8 a).load d 8 = a ∧
    (((m.store d 8 0#64).store (d + 8#64) 8 0#64).store d 8 a).load (d + 8#64) 8 = 0#64 ∧
    bytesKept m (((m.store d 8 0#64).store (d + 8#64) 8 0#64).store d 8 a) (inBytes d 16) := by
  obtain ⟨-, second, cleared⟩ := m.store_words d 0#64 0#64
  have address := bytesKept_store ((m.store d 8 0#64).store (d + 8#64) 8 0#64) d 8 a
  refine ⟨Memory.load_store_word _ d a, (address.load_eq le_rfl fun k hk inside => ?_).trans second,
    cleared.trans (address.mono fun _ h => h.mono (by decide))⟩
  rw [BitVec.add_assoc, ← BitVec.ofNat_add, ← BitVec.add_zero d, BitVec.add_assoc, BitVec.zero_add,
    inBytes_offset_iff (j := 0) (by omega) (by omega)] at inside
  omega

theorem armRxSlot_quiet {q slot i : Nat} {s : State} (quiet : s.quiet) (lease : s.lease = some i) :
    armRxSlot q s slot = { s.armed q slot i with
      mem := ((s.mem.store (rxd s.cfg q slot) 8 0#64).store (rxd s.cfg q slot + 8#64) 8 0#64).store (rxd s.cfg q slot) 8
        (s.physOf i) } := by
  have lease' (m : Memory) : State.lease { s with mem := m } = some i := lease
  unfold armRxSlot
  dsimp only
  rw [State.rxInit_quiet quiet, lease']
  dsimp only
  rw [State.rxSetAddr_quiet]
  · simp [State.armed, State.setQueue, State.setEnt, State.setTag, State.clearEnt, State.physOf, List.modify_modify_eq, Function.comp_def]
  · exact quiet

theorem clearTxSlot_quiet {q slot : Nat} {s : State} (quiet : s.quiet) : clearTxSlot q s slot =
    { s.setQueue q (fun r => { r with txBuf := r.txBuf.set slot none }) with mem := s.mem.storeFields (txd s.cfg q slot) initFields } := by
  rw [clearTxSlot, State.txInit_quiet quiet]
  rfl

/-- `t` is `s` after writes to the descriptor at `d` that leave it with the two words. -/
structure DescriptorWritten (s t : State) (d : Addr) (first second : Word) : Prop where
  env : t.env = s.env
  transport : t.transport = s.transport
  nic : t.nic = s.nic
  first : t.mem.load d 8 = first
  second : t.mem.load (d + 8#64) 8 = second
  outside : bytesKept s.mem t.mem (inBytes d 16)

theorem armRxSlot_written {q slot i : Nat} {s : State} (quiet : s.quiet) (lease : s.lease = some i) :
    DescriptorWritten s (armRxSlot q s slot) (rxd s.cfg q slot) (s.physOf i) 0#64 := by
  obtain ⟨first, second, outside⟩ := s.mem.armed_words (rxd s.cfg q slot) (s.physOf i)
  rw [armRxSlot_quiet quiet lease]
  exact ⟨rfl, rfl, rfl, first, second, outside⟩

theorem clearTxSlot_written {q slot : Nat} {s : State} (quiet : s.quiet) :
    DescriptorWritten s (clearTxSlot q s slot) (txd s.cfg q slot) 0#64 0#64 := by
  have fields := s.mem.txFields_initFields (txd s.cfg q slot)
  rw [clearTxSlot_quiet quiet]
  exact ⟨rfl, rfl, rfl, fields.addr, fields.second_word, s.mem.storeFields_kept _ initFields_fits⟩

/-- A descriptor none of whose bytes are written keeps its words. -/
theorem bytesKept.other_words {p : Params} {m m' : Memory} {ring slot ring' slot' : Nat} (valid : validParams p = true)
    (kept : bytesKept m m' (inBytes (descriptor p ring slot) 16)) (hr : ring < 2 * QN p) (hr' : ring' < 2 * QN p) (hs : slot < QS p)
    (hs' : slot' < QS p) (other : ¬ (ring' = ring ∧ slot' = slot)) :
    m'.load (descriptor p ring' slot') 8 = m.load (descriptor p ring' slot') 8 ∧
      m'.load (descriptor p ring' slot' + 8#64) 8 = m.load (descriptor p ring' slot' + 8#64) 8 :=
  kept.load_words fun _ inside inside' => other (descriptor_unique valid hr' hr hs' hs inside inside')

/-! ## Memory while `CR.INIT` fills its rings -/

/-- The bytes `CR.INIT` may change: the descriptors of every ring, and the new pool. -/
def initBytes (p : Params) (x : Nat) : Prop :=
  (∃ q < QN p, ∃ j < QS p, inBytes (rxd p q j) 16 x ∨ inBytes (txd p q j) 16 x) ∨
    inBytes p.poolPBase (p.poolN.toNat * p.poolEsz.toNat) x

/-- `CR.INIT` begun at `s` without a device step in between has armed the first `c` receive descriptors for the buffers of their slots,
zeroed the first `d` transmit descriptors, and set the device's next slot of the first `z` queues. -/
structure Written (s : State) (z c d : Nat) (t : State) : Prop where
  quiet : t.quiet
  transport : t.transport = s.transport
  nexts : t.nic.rxNext.length = QN s.cfg
  next : ∀ q < z, q < QN s.cfg → t.devRxNext q = 0#16
  rx : ∀ q < QN s.cfg, ∀ j < QS s.cfg, q * QS s.cfg + j < c → ∀ i, slotAt (t.queue q).rxBuf j = some i →
    t.mem.load (rxd s.cfg q j) 8 = phys s.cfg s.cfg.poolEsz i ∧ t.mem.load (rxd s.cfg q j + 8#64) 8 = 0#64
  tx : ∀ q < QN s.cfg, ∀ j < QS s.cfg, q * QS s.cfg + j < d →
    t.mem.load (txd s.cfg q j) 8 = 0#64 ∧ t.mem.load (txd s.cfg q j + 8#64) 8 = 0#64
  kept : bytesKept s.mem t.mem (initBytes s.cfg)

section
variable {s t u : State} {z c d q k : Nat}

theorem Written.start (inv : s.Inv) (quiet : s.quiet) (granted : Granted s (s.cfg.poolN.toNat * s.cfg.poolEsz.toNat) u) (pool : Pool) :
    Written s 0 0 0 { u with pool := pool } where
  quiet := granted.sched.trans quiet
  transport := granted.transport
  nexts := by
    obtain ⟨-, -, nexts, -⟩ := inv.sizes
    exact (congrArg (fun n : Nic => n.rxNext.length) granted.nic).trans nexts
  next q hq := absurd hq (Nat.not_lt_zero q)
  rx _ _ _ _ before := absurd before (Nat.not_lt_zero _)
  tx _ _ _ _ before := absurd before (Nat.not_lt_zero _)
  kept := granted.bytes.mono fun _ inside => Or.inr inside

theorem Written.restart (h : Written s q c d t) (records : t.queues.length = QN s.cfg) (hq : q < QN s.cfg) :
    Written s (q + 1) c d (restartQueue q t) := by
  have buffers (r : Nat) : ((restartQueue q t).queue r).rxBuf = (t.queue r).rxBuf := by
    refine (congrArg Queue.rxBuf (State.queue_setQueue (records ▸ hq) _ r)).trans ?_
    split
    · next e => rw [e]
    · rfl
  refine ⟨h.quiet, h.transport, List.length_set.trans h.nexts, fun r hz hr => ?next, fun r hr j hj before i held => ?rx, h.tx, h.kept⟩
  case rx => exact h.rx r hr j hj before i (buffers r ▸ held)
  case next =>
    have length : r < t.nic.rxNext.length := h.nexts.symm ▸ hr
    by_cases here : r = q
    · subst here
      simp [State.devRxNext, restartQueue, length]
    · have before := h.next r (by omega) hr
      simpa [State.devRxNext, restartQueue, List.getElem?_set_ne (Ne.symm here)] using before

variable (valid : validParams s.cfg = true) (hq : q < QN s.cfg) (hk : k < QS s.cfg)
include valid hq hk

theorem Written.arm (h : Written s z (q * QS s.cfg + k) d t) (filled : Filled s z (q * QS s.cfg + k) t)
    (more : q * QS s.cfg + k < s.cfg.poolN.toNat) : Written s z (q * QS s.cfg + k + 1) d (armRxSlot q t k) := by
  obtain ⟨i, lease⟩ := filled.lease more
  have queue (r : Nat) : (armRxSlot q t k).queue r =
      if r = q then { t.queue q with rxBuf := (t.queue q).rxBuf.set k (some i) } else t.queue r :=
    ((armRxSlot_of_lease_some lease).queue r).trans (State.armed_queue (filled.records.symm ▸ hq) r)
  obtain ⟨env, transport, nic, address, status, outside⟩ := armRxSlot_written (q := q) (slot := k) h.quiet lease
  rw [filled.cfg] at address status outside
  generalize armRxSlot q t k = u at *
  have kept := rxd_eq_descriptor valid hq k ▸ outside
  refine ⟨(congrArg Env.sched env).trans h.quiet, transport.trans h.transport, nic ▸ h.nexts, ?next,
    fun r hr j hj before e held => ?rx, fun r hr j hj before => ?tx,
    h.kept.trans (outside.mono fun x inside => Or.inl ⟨q, hq, k, hk, Or.inl inside⟩)⟩
  case next =>
    intro r hz hr
    rw [State.devRxNext, nic]
    exact h.next r hz hr
  case rx =>
    rw [queue] at held
    by_cases here : r * QS s.cfg + j = q * QS s.cfg + k
    · obtain ⟨rfl, rfl⟩ := slotNumber_inj hj hk here
      rw [if_pos rfl, slotAt_set_self ((filled.slots r hr).1.symm ▸ hj)] at held
      obtain rfl := Option.some.inj held
      exact ⟨address.trans (by rw [State.physOf, filled.cfg, filled.esz]), status⟩
    · have other : ¬ (r = q ∧ j = k) := by
        rintro ⟨rfl, rfl⟩
        exact here rfl
      have held' : slotAt (t.queue r).rxBuf j = some e := by
        split at held
        · next same => subst same; rwa [slotAt_set_ne (by omega)] at held
        · exact held
      have words := kept.other_words valid (by omega) (by omega) hk hj other
      rw [← rxd_eq_descriptor valid hr] at words
      rw [words.1, words.2]
      exact h.rx r hr j hj (by omega) e held'
  case tx =>
    have words := kept.other_words valid (ring' := QN s.cfg + r) (by omega) (by omega) hk hj (by omega)
    rw [← txd_eq_descriptor valid] at words
    rw [words.1, words.2]
    exact h.tx r hr j hj before

theorem Written.clearTx (h : Written s z c (q * QS s.cfg + k) t) (filled : Filled s z c t) :
    Written s z c (q * QS s.cfg + k + 1) (clearTxSlot q t k) := by
  have queue (r : Nat) : (clearTxSlot q t k).queue r = t.queue r := by
    rw [(clearTxSlot_envChange q k t).queue, filled.clearTx_same hq]
  obtain ⟨env, transport, nic, first, second, outside⟩ := clearTxSlot_written (q := q) (slot := k) h.quiet
  rw [filled.cfg] at first second outside
  generalize clearTxSlot q t k = u at *
  have kept := txd_eq_descriptor valid q k ▸ outside
  refine ⟨(congrArg Env.sched env).trans h.quiet, transport.trans h.transport, nic ▸ h.nexts, ?next,
    fun r hr j hj before e held => ?rx, fun r hr j hj before => ?tx,
    h.kept.trans (outside.mono fun x inside => Or.inl ⟨q, hq, k, hk, Or.inr inside⟩)⟩
  case next =>
    intro r hz hr
    rw [State.devRxNext, nic]
    exact h.next r hz hr
  case rx =>
    have words := kept.other_words valid (ring' := r) (by omega) (by omega) hk hj (by omega)
    rw [← rxd_eq_descriptor valid hr] at words
    rw [words.1, words.2]
    exact h.rx r hr j hj before e (queue r ▸ held)
  case tx =>
    by_cases here : r * QS s.cfg + j = q * QS s.cfg + k
    · obtain ⟨rfl, rfl⟩ := slotNumber_inj hj hk here
      exact ⟨first, second⟩
    · have other : ¬ (QN s.cfg + r = QN s.cfg + q ∧ j = k) := by
        rintro ⟨e, rfl⟩
        obtain rfl : r = q := by omega
        exact here rfl
      have words := kept.other_words valid (by omega) (by omega) hk hj other
      rw [← txd_eq_descriptor valid] at words
      rw [words.1, words.2]
      exact h.tx r hr j hj (by omega)

end

/-- Settles O21: the loops leave the words slot by slot, and no slot's accesses touch another's descriptor. -/
theorem crInitWritesDescriptors : Obligations.CrInitWritesDescriptors := by
  intro s t inv quiet hs closed family op hop run ok
  obtain rfl := Host.Outcome.next.inj ((exec_crInit hs family hop).symm.trans run)
  have passed := (stops_initCheck hs _).passed ok
  rw [passed, Option.getD_none] at ok ⊢
  obtain ⟨enough, isGranted⟩ := crInitBody_ok ok
  obtain ⟨u, granted, created⟩ := State.poolCreate_granted isGranted
  have done := initQueues_induct (p := s.cfg) (P := fun z c d t => Filled s z c t ∧ Written s z c d t) (fun h => h.1.cfg)
    ⟨Filled.start inv hs closed granted.around, Written.start inv quiet granted _⟩
    (fun q hq t ⟨filled, written⟩ => ⟨filled.restart hq, written.restart filled.records hq⟩)
    (fun q hq k hk t ⟨filled, written⟩ =>
      have more := (slotNumber_lt hq hk).trans_le enough
      ⟨filled.arm hq hk more, written.arm inv.valid hq hk filled more⟩)
    (fun q hq k hk t ⟨filled, written⟩ => ⟨filled.clearTx hq k, written.clearTx inv.valid hq hk filled⟩)
  rw [crInitBody_granted enough created]
  generalize (List.range (QN s.cfg)).foldl initQueue _ = v at done
  obtain ⟨filled, written⟩ := done
  refine ⟨fun q hq j hj => ?_, fun q hq => written.next q hq hq, written.transport, written.kept⟩
  obtain ⟨i, held, -⟩ := filled.armed q hq j hj (slotNumber_lt hq hj)
  obtain ⟨address, status⟩ := written.rx q hq j hj (slotNumber_lt hq hj) i held
  obtain ⟨first, second⟩ := written.tx q hq j hj (slotNumber_lt hq hj)
  exact ⟨i, held, address, status, first, second⟩

end Sys2Proof.Machine
end

section
/-! The token ring driver behind its preamble (spec/44_token_ring.md R230): an operation and its form in the contract (R260) do the same
on a running token block. With it what the predicates and `TXALLOC` answer. -/

namespace Sys2Proof.Machine

/-! ## Behind the preamble (R230, R260) -/

section
variable {s : State} {op : Instr}

/-- The contract on a running token block, for an operation with a queue (R260). -/
theorem byFamilyQueued_token (ready : tokenReady s) (classic token : State → Result) : byFamilyQueued 0 classic token s = token s := by
  obtain ⟨running, family, open', inRange⟩ := ready
  rw [byFamilyQueued, byFamily_token running family, (tokenGates_none 0 s).mpr ⟨open', inRange⟩]

section
variable (ready : tokenReady s)
include ready

theorem trCheck_ready : trCheck s = none := by
  obtain ⟨running, family, open', -⟩ := ready
  exact (trCheck_none s).mpr ⟨running, family, open'⟩

theorem exec_tokenCanrx (hop : op ∈ [Instr.trCanrx, .devCanrx 0]) : exec op s = .next (trCanrxBody s) := by
  rw [exec_of_forms (r := execTrCanrx s) hop rfl (byFamilyQueued_token ready _ _), execTrCanrx, trCheck_ready ready]
  rfl

theorem exec_tokenRx (hop : op ∈ [Instr.trRx, .devRx 0]) : exec op s = trRxBody s := by
  rw [exec_of_forms (r := execTrRx s) hop rfl (byFamilyQueued_token ready _ _), execTrRx, trCheck_ready ready]

theorem exec_tokenRxrecycle (hop : op ∈ [Instr.trRxrecycle, .devRxrecycle]) : exec op s = .next (trRxrecycleBody s) := by
  have ⟨running, family, _⟩ := ready
  rw [exec_of_forms (r := execTrRxrecycle s) hop rfl (byFamily_token running family _ _), execTrRxrecycle, trCheck_ready ready]
  rfl

theorem exec_tokenCantx (hop : op ∈ [Instr.trCantx, .devCantx 0]) : exec op s = .next (trCantxBody s) := by
  rw [exec_of_forms (r := execTrCantx s) hop rfl (byFamilyQueued_token ready _ _), execTrCantx, trCheck_ready ready]
  rfl

theorem exec_tokenTx (hop : op ∈ [Instr.trTx, .devTx 0]) : exec op s = .next (trTxBody s) := by
  rw [exec_of_forms (r := execTrTx s) hop rfl (byFamilyQueued_token ready _ _), execTrTx, trCheck_ready ready]
  rfl

theorem exec_tokenTxrecycle (hop : op ∈ [Instr.trTxrecycle, .devTxrecycle 0]) : exec op s = txDrain (drainBound s) s := by
  rw [exec_of_forms (r := execTrTxrecycle s) hop rfl (byFamilyQueued_token ready _ _), execTrTxrecycle, trCheck_ready ready]

theorem exec_tokenTxalloc (hop : op ∈ [Instr.trTxalloc, .devTxalloc]) : exec op s = .next (trTxallocBody s) := by
  have ⟨running, family, _⟩ := ready
  rw [exec_of_forms (r := execTrTxalloc s) hop rfl (byFamily_token running family _ _), execTrTxalloc, trCheck_ready ready]
  rfl

end

end

/-! ## Tokens in use and free tokens (R286) -/

theorem Transport.rxBusy_eq (t : Transport) : t.rxBusy = t.rxHeld.map Prod.fst := by
  simp [Transport.rxBusy, Transport.rxHeld, Function.comp_def]

theorem Transport.txBusy_eq (t : Transport) : t.txBusy = t.txHeld.map Prod.fst := by
  simp [Transport.txBusy, Transport.txHeld, Function.comp_def]

theorem freeTokens_eq_nil_iff {qs : Nat} {busy : List Nat} : freeTokens qs busy = [] ↔ ∀ t < qs, t ∈ busy := by
  simp only [List.eq_nil_iff_forall_not_mem, mem_freeTokens, not_and, not_not]

/-- `T.can_send` by the tokens the transport holds (R293). -/
theorem State.canSend_iff (s : State) : s.canSend.1 = true ↔ ∃ t < QS s.cfg, t ∉ s.envTurn.transport.txHeld.map Prod.fst := by
  simp only [State.canSend, Bool.not_eq_true', List.isEmpty_eq_false_iff, ne_eq, freeTokens_eq_nil_iff, Transport.txBusy_eq,
    not_forall, exists_prop]

/-! ## Predicates (R232, R235) -/

theorem trCanrxBody_eq (s : State) :
    trCanrxBody s = { s.afterTurn with v0 := if s.envTurn.transport.rxUsed = [] then 0#64 else 1#64, st := 0#8 } := by
  rw [State.afterTurn_eq, trCanrxBody, State.pollReceive]
  cases s.envTurn.transport.rxUsed <;> rfl

theorem trCantxBody_eq (s : State) : trCantxBody s = { s.afterTurn with
    v0 := boolWord (decide (s.token.freeTx ≠ [] ∧ ∃ t < QS s.cfg, t ∉ s.envTurn.transport.txHeld.map Prod.fst)), st := 0#8 } := by
  have test : (!s.token.freeTx.isEmpty && s.canSend.1) =
      decide (s.token.freeTx ≠ [] ∧ ∃ t < QS s.cfg, t ∉ s.envTurn.transport.txHeld.map Prod.fst) := by
    rw [Bool.eq_iff_iff, Bool.and_eq_true, State.canSend_iff, Bool.not_eq_true', List.isEmpty_eq_false_iff, decide_eq_true_eq]
  rw [State.afterTurn_eq, ← test]
  rfl

/-- Settles O34: behind the preamble each predicate is one question to the transport, after its turn. -/
theorem tokenPredicates : Obligations.TokenPredicates := by
  intro s ready
  refine ⟨fun op hop => ?_, fun op hop => ⟨fun can => ?_, fun cannot => ?_⟩, fun quiet x => by rw [State.afterTurn_quiet quiet]⟩
  · rw [exec_tokenCanrx ready hop, trCanrxBody_eq]
  · rw [exec_tokenCantx ready hop, trCantxBody_eq, decide_eq_true can]
    rfl
  · rw [exec_tokenCantx ready hop, trCantxBody_eq, decide_eq_false cannot]
    rfl

/-! ## Allocation for transmit (R238) -/

/-- Lending an entry to the host, as an assignment to its record (R188). -/
theorem State.emit_eq (s : State) (i : Nat) (hdr len : Word) : s.emit i hdr len = { s with
    v0 := s.ptrOf i, v1 := s.ptrOf i + hdr, v2 := len, st := 0#8
    pool := { s.pool with
      ent := s.pool.ent.set i ⟨.swStack, hdr, len, s.pool.esz.setWidth 64, some ⟨s.ptrOf i, s.ptrOf i + hdr, len⟩⟩ } } := by
  rw [State.emit, State.setEnt, modify_eq_set_getD _ _ _ ({} : Entry)]
  rfl

/-- Settles O40: the stock, then the size, then the entry at the end of the list. -/
theorem trTxallocPopsTop : Obligations.TrTxallocPopsTop := by
  intro s ready op hop
  rw [exec_tokenTxalloc ready hop]
  refine ⟨fun empty => ?_, fun rest i stock => ?_⟩
  · rw [trTxallocBody, empty]
    rfl
  have top : s.token.freeTx.getLast? = some i := by rw [stock, List.getLast?_concat]
  rw [trTxallocBody, top]
  dsimp only
  refine ⟨fun large => ?_, fun fits => ?_⟩
  · rw [if_pos large]
    rfl
  · rw [if_neg (Nat.not_lt.mpr fits), stock, List.dropLast_concat, State.emit_eq]
    rfl

end Sys2Proof.Machine
end

section
/-! The begin calls of the transport (R287, R290) with their answers, and with no device step in between what the token ring driver's
`RX`, `RXRECYCLE` and `TX` answer. -/

namespace Sys2Proof.Machine

/-! ## Answers of a begin call -/

/-- The coming answer to a begin call: the next one listed, or as the contract says with a free draw. -/
def Env.answer (e : Env) : BeginAnswer := e.begins.headD (.contract (Config.tokenChoice e.drawn))

/-- The choices still to come after the answer to a begin call. -/
def Env.answered (e : Env) : Env :=
  match e.begins with
  | [] => { e with drawn := e.drawn + 1 }
  | _ :: rest => { e with begins := rest }

theorem State.nextBegin_eq (s : State) : s.nextBegin = (s.env.answer, { s with env := s.env.answered }) := by
  unfold State.nextBegin Env.answer Env.answered
  split <;> next listed => simp only [listed, List.headD_cons, List.headD_nil]

@[simp] theorem Env.answered_sched (e : Env) : e.answered.sched = e.sched := by unfold Env.answered; split <;> rfl
@[simp] theorem Env.answered_headers (e : Env) : e.answered.headers = e.headers := by unfold Env.answered; split <;> rfl
@[simp] theorem Env.answered_begins (e : Env) : e.answered.begins = e.begins.tail := by
  unfold Env.answered
  split <;> next listed => simp only [listed, List.tail_cons, List.tail_nil]

theorem Env.answer_of_head {e : Env} {a : BeginAnswer} (h : e.begins.head? = some a) : e.answer = a := by
  rw [Env.answer, List.headD_eq_head?_getD, h, Option.getD_some]

/-- An answer is one the contract lets the transport give where every listed one is (R287, R290). -/
theorem Env.answer_contract {e : Env} (h : ∀ a ∈ e.begins.head?, ∃ k, a = .contract k) : ∃ k, e.answer = .contract k := by
  cases listed : e.begins.head? with
  | none => exact ⟨_, by rw [Env.answer, List.headD_eq_head?_getD, listed, Option.getD_none]⟩
  | some a => exact Env.answer_of_head listed ▸ h a listed

/-! ## The token a begin call gives -/

/-- As the contract says, while a token is free: one of the free ones, and during the initial fill the count of submissions. -/
theorem chooseToken_contract {qs count : Nat} {consumed : Bool} {busy : List Nat} (k : Nat) (free : ∃ t < qs, t ∉ busy)
    (fill : count < qs → consumed = false → count ∉ busy) : ∃ tok < qs, tok ∉ busy ∧
      (count < qs → consumed = false → tok = count) ∧ chooseToken qs count consumed (freeTokens qs busy) (.contract k) = .ok tok := by
  have some : freeTokens qs busy ≠ [] := fun none => by
    obtain ⟨t, ht, fresh⟩ := free
    exact fresh (freeTokens_eq_nil_iff.mp none t ht)
  by_cases filling : count < qs ∧ consumed = false
  · refine ⟨count, filling.1, fill filling.1 filling.2, fun _ _ => rfl, ?_⟩
    rw [chooseToken, if_neg some, if_pos filling]
  · have inList : k % (freeTokens qs busy).length < (freeTokens qs busy).length := Nat.mod_lt _ (List.length_pos_iff.mpr some)
    obtain ⟨inRing, fresh⟩ := (mem_freeTokens _ _ _).mp (List.getElem_mem inList)
    refine ⟨_, inRing, fresh, fun h h' => absurd ⟨h, h'⟩ filling, ?_⟩
    rw [chooseToken, if_neg some, if_neg filling, List.getElem?_eq_getElem inList]

theorem chooseToken_full {qs count : Nat} {consumed : Bool} {busy : List Nat} (k : Nat) (full : ∀ t < qs, t ∈ busy) :
    chooseToken qs count consumed (freeTokens qs busy) (.contract k) = .full := by
  rw [chooseToken, if_pos (freeTokens_eq_nil_iff.mpr full)]

/-- What `T.receive_begin` answers if it is called now (R287). -/
def State.rxChoice (s : State) : BeginResult :=
  chooseToken (QS s.cfg) s.transport.rxCount s.transport.rxConsumed (freeTokens (QS s.cfg) s.transport.rxBusy) s.env.answer

/-- What `T.transmit_begin` answers if it is called now (R290). -/
def State.txChoice (s : State) : BeginResult :=
  chooseToken (QS s.cfg) s.transport.txCount s.transport.txConsumed (freeTokens (QS s.cfg) s.transport.txBusy) s.env.answer

section
variable {s : State}

theorem State.choices_faultyFull (h : s.env.begins.head? = some .faultyFull) : s.rxChoice = .full ∧ s.txChoice = .full := by
  rw [State.rxChoice, State.txChoice, Env.answer_of_head h]
  exact ⟨rfl, rfl⟩

theorem State.choices_faulty {tok : BitVec 16} {rest : List BeginAnswer} (h : s.env.begins = .faulty tok :: rest) :
    s.rxChoice = .ok tok.toNat ∧ s.txChoice = .ok tok.toNat := by
  rw [State.rxChoice, State.txChoice, Env.answer_of_head (by rw [h]; rfl)]
  exact ⟨rfl, rfl⟩

/-- A transport that keeps its contract has no token to give where all are in use (R287). -/
theorem State.rxChoice_full (answers : ∀ a ∈ s.env.begins.head?, ∃ k, a = .contract k)
    (full : ∀ t < QS s.cfg, t ∈ s.transport.rxHeld.map Prod.fst) : s.rxChoice = .full := by
  obtain ⟨k, answer⟩ := Env.answer_contract answers
  rw [State.rxChoice, answer, Transport.rxBusy_eq]
  exact chooseToken_full k full

section
variable {i tok nbytes : Nat}

theorem State.receiveBegin_full (choice : s.envTurn.rxChoice = .full) :
    s.receiveBegin i = (.full, { s.envTurn with env := s.envTurn.env.answered }) := by
  rw [State.rxChoice, State.envTurn_cfg] at choice
  rw [State.receiveBegin, State.nextBegin_eq]
  dsimp only
  rw [choice]

theorem State.receiveBegin_ok (choice : s.envTurn.rxChoice = .ok tok) : s.receiveBegin i =
    (.ok tok, { s.envTurn with transport := s.envTurn.transport.beginRx tok i, env := s.envTurn.env.answered }) := by
  rw [State.rxChoice, State.envTurn_cfg] at choice
  rw [State.receiveBegin, State.nextBegin_eq]
  dsimp only
  rw [choice]
  rfl

theorem State.transmitBegin_full (choice : s.envTurn.txChoice = .full) :
    s.transmitBegin i nbytes = (.full, { s.envTurn with env := s.envTurn.env.answered }) := by
  rw [State.txChoice, State.envTurn_cfg] at choice
  rw [State.transmitBegin, State.nextBegin_eq]
  dsimp only
  rw [choice]

theorem State.transmitBegin_ok (choice : s.envTurn.txChoice = .ok tok) : s.transmitBegin i nbytes =
    (.ok tok, { s.envTurn with transport := s.envTurn.transport.beginTx tok i nbytes, env := s.envTurn.env.answered }) := by
  rw [State.txChoice, State.envTurn_cfg] at choice
  rw [State.transmitBegin, State.nextBegin_eq]
  dsimp only
  rw [choice]
  rfl

end

/-! ## Receive (R233) -/

section
variable (quiet : s.quiet)
include quiet

theorem trRxBody_none (empty : s.transport.rxUsed = []) : trRxBody s = .next (s.finish .again) := by
  rw [trRxBody, State.pollReceive, State.envTurn_quiet quiet, empty]
  rfl

section
variable {u : RxDone} {rest : List RxDone} (front : s.transport.rxUsed = u :: rest)
include front

theorem trRxBody_front : trRxBody s =
    if QS s.cfg ≤ u.tok then .next (s.raise .tokenRange)
    else match slotAt s.token.rxBuffers u.tok with
      | none => .next (s.raise .rxSlotAbsent)
      | some i => match (s.setRxBuffer u.tok none).receiveComplete u.tok i with
        | none => .fault .transportContract
        | some c => .next (c.2.emit i c.1.1 c.1.2) := by
  rw [trRxBody, State.pollReceive, State.envTurn_quiet quiet, front]
  rfl

/-- The completion at the front consumed, after its slot has been emptied (R289). -/
theorem State.receiveComplete_front : (s.setRxBuffer u.tok none).receiveComplete u.tok u.entry =
    some ((u.hdrLen, u.pktLen),
      { s.setRxBuffer u.tok none with transport := { s.transport with rxUsed := rest, rxConsumed := true } }) := by
  rw [State.receiveComplete, State.envTurn_quiet (s := s.setRxBuffer u.tok none) quiet, State.setRxBuffer_transport, front]
  exact if_pos ⟨rfl, rfl⟩

end

end

end

/-- Settles O35: the front of the completed tokens, the slot under it, and the entry lent with the lengths reported. -/
theorem trRxDeliversFront : Obligations.TrRxDeliversFront := by
  intro s ready quiet op hop
  rw [exec_tokenRx ready hop]
  refine ⟨fun empty => by rw [trRxBody_none quiet empty]; rfl, fun u rest front => ?_⟩
  rw [trRxBody_front quiet front]
  refine ⟨fun beyond => ?_, fun inRing absent => ?_, fun inRing held => ?_⟩
  · rw [if_pos beyond]
    rfl
  · rw [if_neg (Nat.not_le.mpr inRing), absent]
    rfl
  · rw [if_neg (Nat.not_le.mpr inRing), held]
    dsimp only
    rw [State.receiveComplete_front quiet front]
    dsimp only
    rw [State.emit_eq]
    rfl

/-! ## Giving an entry to the transport (R234, R236) -/

theorem State.canSend_quiet {s : State} (quiet : s.quiet) : s.canSend.2 = s := State.envTurn_quiet quiet

theorem State.canSend_quiet_iff {s : State} (quiet : s.quiet) :
    s.canSend.1 = true ↔ ∃ t < QS s.cfg, t ∉ s.transport.txHeld.map Prod.fst := by
  rw [State.canSend_iff, State.envTurn_quiet quiet]

/-- The handle of a lent entry is accepted by the token ring driver (R183). -/
theorem State.Inv.reclaim_lent {s : State} {i : Nat} (inv : s.Inv) (ready : tokenReady s) (lent : s.lent i s.handleIn) :
    s.reclaim s.handleIn = some i := by
  obtain ⟨-, -, open', -⟩ := ready
  exact inv.reclaim_iff.mpr ⟨inv.present_of_inited open', lent⟩

/-- Entry `i` as `RXRECYCLE` hands it to the hardware (R234). -/
def State.recycled (s : State) (i : Nat) : State :=
  s.setEnt i (fun e => { e with hdrLen := 0#64, pktLen := 0#64, wire := none, tag := .hw })

/-- Entry `i` as `TX` hands it to the hardware (R236). -/
def State.handedToTx (s : State) (i : Nat) : State := s.setEnt i (fun e => { e with wire := none, tag := .hw })

/-- Header and packet of entry `i`, in bytes (R236). -/
def State.sendBytes (s : State) (i : Nat) : Nat := (s.entry i).hdrLen.toNat + (s.entry i).pktLen.toNat

/-- `RXRECYCLE` with its entry submitted under the token `tok`, before the token is looked at (R234). -/
def State.begunRx (s : State) (tok i : Nat) : State :=
  { s.recycled i with transport := s.transport.beginRx tok i, env := s.env.answered }

/-- `TX` with its entry submitted under the token `tok`, before the token is looked at (R236). -/
def State.begunTx (s : State) (tok i : Nat) : State :=
  { s.handedToTx i with transport := s.transport.beginTx tok i (s.sendBytes i), env := s.env.answered }

section
variable {s : State} {i tok : Nat} (quiet : s.quiet) (accepted : s.reclaim s.handleIn = some i)
include quiet accepted

theorem trRxrecycleBody_full (choice : s.rxChoice = .full) :
    trRxrecycleBody s = State.raise { s.recycled i with env := s.env.answered } .transport := by
  have still : (s.recycled i).envTurn = s.recycled i := State.envTurn_quiet quiet
  have full : (s.recycled i).receiveBegin i = (.full, { s.recycled i with env := s.env.answered }) := by
    rw [State.receiveBegin_full (by rw [still]; exact choice), still]
    rfl
  rw [State.recycled] at full
  rw [trRxrecycleBody, accepted]
  dsimp only
  rw [full]
  rfl

theorem trRxrecycleBody_ok (choice : s.rxChoice = .ok tok) : trRxrecycleBody s =
    if QS s.cfg ≤ tok then (s.begunRx tok i).raise .tokenRange
    else if (slotAt s.token.rxBuffers tok).isSome then (s.begunRx tok i).raise .rxSlotOccupied
    else ((s.begunRx tok i).setRxBuffer tok (some i)).ok := by
  have still : (s.recycled i).envTurn = s.recycled i := State.envTurn_quiet quiet
  have begun : (s.recycled i).receiveBegin i = (.ok tok, s.begunRx tok i) := by
    rw [State.receiveBegin_ok (by rw [still]; exact choice), still]
    rfl
  rw [State.recycled] at begun
  rw [trRxrecycleBody, accepted]
  dsimp only
  rw [begun]
  rfl

theorem trTxBody_noRoom (full : ∀ t < QS s.cfg, t ∈ s.transport.txHeld.map Prod.fst) : trTxBody s = s.finish .again := by
  have noRoom : s.canSend.1 = false := by
    rw [← Bool.not_eq_true, State.canSend_quiet_iff quiet]
    rintro ⟨t, inRing, fresh⟩
    exact fresh (full t inRing)
  rw [trTxBody, accepted]
  dsimp only
  rw [if_pos noRoom, State.canSend_quiet quiet]

section
variable (room : ∃ t < QS s.cfg, t ∉ s.transport.txHeld.map Prod.fst)
include room

theorem trTxBody_full (choice : s.txChoice = .full) :
    trTxBody s = State.raise { s.handedToTx i with env := s.env.answered } .transport := by
  have canSend : ¬ s.canSend.1 = false := by rwa [Bool.not_eq_false, State.canSend_quiet_iff quiet]
  have still : (s.handedToTx i).envTurn = s.handedToTx i := State.envTurn_quiet quiet
  have full : (s.handedToTx i).transmitBegin i (s.sendBytes i) = (.full, { s.handedToTx i with env := s.env.answered }) := by
    rw [State.transmitBegin_full (by rw [still]; exact choice), still]
    rfl
  rw [State.handedToTx, State.sendBytes] at full
  rw [trTxBody, accepted]
  dsimp only
  rw [if_neg canSend, State.canSend_quiet quiet, full]
  rfl

theorem trTxBody_ok (choice : s.txChoice = .ok tok) : trTxBody s =
    if QS s.cfg ≤ tok then (s.begunTx tok i).raise .tokenRange
    else if (slotAt s.token.txBuffers tok).isSome then (s.begunTx tok i).raise .txSlotOccupied
    else ((s.begunTx tok i).setTxBuffer tok (some i)).ok := by
  have canSend : ¬ s.canSend.1 = false := by rwa [Bool.not_eq_false, State.canSend_quiet_iff quiet]
  have still : (s.handedToTx i).envTurn = s.handedToTx i := State.envTurn_quiet quiet
  have begun : (s.handedToTx i).transmitBegin i (s.sendBytes i) = (.ok tok, s.begunTx tok i) := by
    rw [State.transmitBegin_ok (by rw [still]; exact choice), still]
    rfl
  rw [State.handedToTx, State.sendBytes] at begun
  rw [trTxBody, accepted]
  dsimp only
  rw [if_neg canSend, State.canSend_quiet quiet, begun]
  rfl

end

end

/-! ## A token that is free (R44, R45, R286) -/

/-- Where the slot array and the transport agree, a slot is empty exactly when its token is not in use. -/
theorem Agree.slotAt_none_iff {l : List (Option Nat)} {held : List (Nat × Nat)} (h : Agree l held) (t : Nat) :
    slotAt l t = none ↔ t ∉ held.map Prod.fst := by
  obtain ⟨same, -⟩ := h
  rw [Option.eq_none_iff_forall_ne_some]
  constructor
  · rintro none inUse
    obtain ⟨⟨t', i⟩, hx, rfl⟩ := List.mem_map.mp inUse
    exact none i ((same t' i).mpr hx)
  · intro fresh i held'
    exact fresh (List.mem_map_of_mem ((same t i).mp held'))

/-- Settles O36: the transport gives a token it has not in use, and where block and transport agree its slot is empty. -/
theorem trRxrecycleResubmits : Obligations.TrRxrecycleResubmits := by
  intro s i k rest inv tokens ready quiet lent answers empty fill op hop
  obtain ⟨agree, -⟩ := s.tokensOk_iff.mp tokens ready.1
  simp only [agree.slotAt_none_iff] at empty fill
  obtain ⟨tok, inRing, fresh, filling, choice⟩ := chooseToken_contract k empty fill
  have answered : s.env.answered = { s.env with begins := rest } := by rw [Env.answered, answers]
  have chosen : s.rxChoice = .ok tok := by
    rw [State.rxChoice, Env.answer_of_head (by rw [answers]; rfl), Transport.rxBusy_eq]
    exact choice
  have free : slotAt s.token.rxBuffers tok = none := (agree.slotAt_none_iff tok).mpr fresh
  refine ⟨tok, inRing, free, filling, ?_⟩
  rw [exec_tokenRxrecycle ready hop, trRxrecycleBody_ok quiet (inv.reclaim_lent ready lent) chosen, if_neg (Nat.not_le.mpr inRing),
    free, if_neg (by simp), State.begunRx, answered, State.recycled, State.setEnt, modify_eq_set_getD _ _ _ ({} : Entry)]
  rfl

/-- Settles O37: as for receiving, after `T.can_send` has said yes for the token that is free. -/
theorem trTxSubmits : Obligations.TrTxSubmits := by
  intro s i k rest inv tokens ready quiet lent answers empty fill op hop
  obtain ⟨-, agree⟩ := s.tokensOk_iff.mp tokens ready.1
  simp only [agree.slotAt_none_iff] at empty fill
  obtain ⟨tok, inRing, fresh, filling, choice⟩ := chooseToken_contract k empty fill
  have answered : s.env.answered = { s.env with begins := rest } := by rw [Env.answered, answers]
  have chosen : s.txChoice = .ok tok := by
    rw [State.txChoice, Env.answer_of_head (by rw [answers]; rfl), Transport.txBusy_eq]
    exact choice
  have free : slotAt s.token.txBuffers tok = none := (agree.slotAt_none_iff tok).mpr fresh
  refine ⟨tok, inRing, free, filling, ?_⟩
  rw [exec_tokenTx ready hop, trTxBody_ok quiet (inv.reclaim_lent ready lent) empty chosen, if_neg (Nat.not_le.mpr inRing),
    free, if_neg (by simp), State.begunTx, answered, State.handedToTx, State.setEnt, modify_eq_set_getD _ _ _ ({} : Entry)]
  rfl

end Sys2Proof.Machine
end

section
/-! The drain loop of `TR.TXRECYCLE` (R237) with no device step in between, completion by completion; and what the token operations
answer where a check fails (R304, R308 item 7). -/

namespace Sys2Proof.Machine

/-! ## One turn of the drain loop -/

/-- The completion `x` at the front drained: its slot emptied, its buffer on the free-list without payload, the completion consumed. -/
def State.drainedTx (s : State) (x : TxFlight) : State :=
  { ((s.setTxBuffer x.tok none).setEnt x.entry (fun e => { e with pktLen := 0#64, tag := .swDriver })).setFreeTx
      (s.token.freeTx ++ [x.entry]) with transport := s.transport.consumeTx }

section
variable {s : State} {fuel : Nat} (quiet : s.quiet)
include quiet

theorem txDrain_none (empty : s.transport.txUsed = []) : txDrain fuel s = .next s.ok := by
  cases fuel with
  | zero => rfl
  | succ fuel =>
    rw [txDrain, State.pollTransmit, State.envTurn_quiet quiet, empty]
    rfl

section
variable {x : TxFlight} {rest : List TxFlight} (front : s.transport.txUsed = x :: rest)
include front

theorem State.pollTransmit_front : s.pollTransmit = (some x.tok, s) := by
  rw [State.pollTransmit, State.envTurn_quiet quiet, front]
  rfl

theorem txDrain_beyond (beyond : QS s.cfg ≤ x.tok) : txDrain (fuel + 1) s = .next (s.raise .tokenRange) := by
  rw [txDrain, State.pollTransmit_front quiet front]
  exact if_pos beyond

theorem txDrain_absent (inRing : x.tok < QS s.cfg) (absent : slotAt s.token.txBuffers x.tok = none) :
    txDrain (fuel + 1) s = .next (s.raise .txSlotAbsent) := by
  rw [txDrain, State.pollTransmit_front quiet front]
  dsimp only
  rw [if_neg (Nat.not_le.mpr inRing), absent]

theorem txDrain_turn (inRing : x.tok < QS s.cfg) (held : slotAt s.token.txBuffers x.tok = some x.entry) :
    txDrain (fuel + 1) s = txDrain fuel (s.drainedTx x) := by
  have still : (s.setTxBuffer x.tok none).envTurn = s.setTxBuffer x.tok none := State.envTurn_quiet quiet
  have completed : (s.setTxBuffer x.tok none).transmitComplete x.tok x.entry =
      some { s.setTxBuffer x.tok none with transport := s.transport.consumeTx } := by
    rw [State.transmitComplete, still, State.setTxBuffer_transport, front, Transport.consumeTx, front]
    exact if_pos ⟨rfl, rfl⟩
  rw [txDrain, State.pollTransmit_front quiet front]
  dsimp only
  rw [if_neg (Nat.not_le.mpr inRing), held]
  dsimp only
  rw [completed]
  rfl

end

end

/-! ## The checks -/

/-- A halt with the cause `c` after entry `i` has been handed over, the token arrays as they were. -/
structure HaltsHandedOver (s : State) (i : Nat) (c : BitVec 8) (t : State) : Prop where
  halted : t.halted = true
  hcause : t.hcause = c
  st : t.st = 4#8
  entry : (t.entry i).tag = .hw
  token : t.token = s.token

theorem HaltsHandedOver.of_raise {s : State} {i : Nat} {f : Entry → Entry} (hands : HandsOver f) (inPool : i < s.pool.ent.length)
    (c : Cause) (tr : Transport) (e : Env) :
    HaltsHandedOver s i c.code (State.raise { s.setEnt i f with transport := tr, env := e } c) where
  halted := rfl
  hcause := rfl
  st := rfl
  entry := (congrArg Entry.tag (State.entry_setEnt_self inPool f)).trans (hands _).1
  token := rfl

/-- The halt over a token that cannot be used: out of range comes before the slot that is occupied (R234, R236). -/
theorem raise_badToken {u : State} {qs tok : Nat} {slot : Option Nat} {c : Cause} (next : State) (bad : qs ≤ tok ∨ slot ≠ none) :
    (if qs ≤ tok then u.raise .tokenRange else if slot.isSome then u.raise c else next) =
      u.raise (if qs ≤ tok then .tokenRange else c) := by
  split
  · rfl
  next inRing =>
    rw [if_pos (Option.isSome_iff_ne_none.mpr (bad.resolve_left inRing))]

theorem Cause.code_ite (p : Prop) [Decidable p] (c d : Cause) : (if p then c else d).code = if p then c.code else d.code := apply_ite ..

/-- Settles O38: the handle check comes first, then the transport's answer, then the token it gives, with the entry handed over before. -/
theorem tokenChecksHalt : Obligations.TokenChecksHalt := by
  intro s inv ready quiet
  refine ⟨fun x rest front op hop => ?drain, fun op hop noneLent => ?handle, fun i lent => ?lent⟩
  case drain =>
    rw [exec_tokenTxrecycle ready hop, drainBound]
    exact ⟨txDrain_beyond quiet front, txDrain_absent quiet front⟩
  case handle =>
    have refused : s.reclaim s.handleIn = none :=
      Option.eq_none_iff_forall_ne_some.mpr fun i accepted => noneLent i (inv.reclaim_iff.mp accepted).2
    have direction : op ∈ [Instr.trRxrecycle, .devRxrecycle] ∨ op ∈ [Instr.trTx, .devTx 0] := by
      simp only [List.mem_cons, List.not_mem_nil, or_false] at hop ⊢
      tauto
    rcases direction with rx | tx
    · rw [exec_tokenRxrecycle ready rx, takesHandle_trRxrecycleBody.refuses refused]
      rfl
    · rw [exec_tokenTx ready tx, takesHandle_trTxBody.refuses refused]
      rfl
  have accepted := inv.reclaim_lent ready lent
  have inPool := lent.1
  have rxHands : HandsOver fun e => { e with hdrLen := 0#64, pktLen := 0#64, wire := none, tag := .hw } := fun _ => ⟨rfl, rfl⟩
  have txHands : HandsOver fun e => { e with wire := none, tag := .hw } := fun _ => ⟨rfl, rfl⟩
  refine ⟨fun op hop full => ?txNoRoom, fun op hop full => ?rxFull, fun op hop faulty room => ?txFull,
    fun tok rest faulty => ⟨fun bad op hop => ?rxToken, fun bad room op hop => ?txToken⟩⟩
  case txNoRoom =>
    rw [exec_tokenTx ready hop, trTxBody_noRoom quiet accepted full]
    rfl
  case rxFull =>
    have choice : s.rxChoice = .full := full.elim (fun h => (State.choices_faultyFull h).1) fun ⟨held, answers⟩ =>
      State.rxChoice_full answers held
    rw [exec_tokenRxrecycle ready hop, trRxrecycleBody_full quiet accepted choice]
    obtain ⟨halted, hcause, st, entry, token⟩ := HaltsHandedOver.of_raise rxHands inPool .transport s.transport s.env.answered
    exact ⟨_, rfl, halted, hcause, st, entry, token, rfl⟩
  case txFull =>
    rw [exec_tokenTx ready hop, trTxBody_full quiet accepted room (State.choices_faultyFull faulty).2]
    obtain ⟨halted, hcause, st, entry, token⟩ := HaltsHandedOver.of_raise txHands inPool .transport s.transport s.env.answered
    exact ⟨_, rfl, halted, hcause, st, entry, token, rfl⟩
  case rxToken =>
    rw [exec_tokenRxrecycle ready hop, trRxrecycleBody_ok quiet accepted (State.choices_faulty faulty).1, raise_badToken _ bad]
    obtain ⟨halted, hcause, st, entry, token⟩ := HaltsHandedOver.of_raise rxHands inPool
      (if QS s.cfg ≤ tok.toNat then .tokenRange else .rxSlotOccupied) (s.transport.beginRx tok.toNat i) s.env.answered
    exact ⟨_, rfl, halted, hcause.trans (Cause.code_ite ..), st, entry, token⟩
  case txToken =>
    rw [exec_tokenTx ready hop, trTxBody_ok quiet accepted room (State.choices_faulty faulty).2, raise_badToken _ bad]
    obtain ⟨halted, hcause, st, entry, token⟩ := HaltsHandedOver.of_raise txHands inPool
      (if QS s.cfg ≤ tok.toNat then .tokenRange else .txSlotOccupied) (s.transport.beginTx tok.toNat i (s.sendBytes i)) s.env.answered
    exact ⟨_, rfl, halted, hcause.trans (Cause.code_ite ..), st, entry, token⟩

/-! ## Buffers of different tokens (R43, R38) -/

/-- A buffer under two tokens is held twice. -/
theorem two_le_count_present {l : List (Option Nat)} {j k i : Nat} (hj : slotAt l j = some i) (hk : slotAt l k = some i)
    (other : j ≠ k) : 2 ≤ (present l).count i := by
  have emptied := count_present_set i none (lt_length_of_slotAt hj)
  have still : slotAt (l.set j none) k = some i := by rw [slotAt_set_ne (Ne.symm other), hk]
  have held := List.count_pos_iff.mpr (mem_present_of_slotAt still)
  simp only [hj, Option.toList, List.count_singleton_self, List.count_nil] at emptied
  omega

/-- No entry stands under two transmit tokens. -/
theorem State.owned_tx_unique {s : State} (owned : s.owned) {j k i : Nat} (hj : slotAt s.token.txBuffers j = some i)
    (hk : slotAt s.token.txBuffers k = some i) : j = k := by
  by_contra other
  have twice := two_le_count_present hj hk other
  have once := (owned i).1
  rw [State.installed, List.count_append] at once
  split at once <;> omega

/-- An entry under a transmit token is one of the pool. -/
theorem State.owned_tx_inPool {s : State} (owned : s.owned) {j i : Nat} (hj : slotAt s.token.txBuffers j = some i) :
    i < s.pool.ent.length :=
  State.lt_of_tag_eq ((State.owned_hw_iff owned i).mpr (List.mem_append_right _ (mem_present_of_slotAt hj))) nofun

/-! ## Draining -/

/-- The completions `pre` can be drained from `s`: each with the buffer its slot holds, no token and no buffer twice. -/
structure Drainable (s : State) (pre : List TxFlight) : Prop where
  held : ∀ x ∈ pre, slotAt s.token.txBuffers x.tok = some x.entry
  inRing : ∀ x ∈ pre, x.tok < QS s.cfg
  inPool : ∀ x ∈ pre, x.entry < s.pool.ent.length
  tokens : (pre.map (·.tok)).Nodup
  entries : (pre.map (·.entry)).Nodup

/-- In the invariant it is enough that the completions are those of the array, each once (R43, R45). -/
theorem State.Inv.drainable {s : State} (inv : s.Inv) (hs : s.halted = false) {pre : List TxFlight}
    (held : ∀ x ∈ pre, slotAt s.token.txBuffers x.tok = some x.entry) (tokens : (pre.map (·.tok)).Nodup) : Drainable s pre where
  held := held
  inRing x hx := by
    obtain ⟨-, -, -, -, -, txLength, -⟩ := inv.sizes
    exact txLength ▸ lt_length_of_slotAt (held x hx)
  inPool x hx := State.owned_tx_inPool (inv.live hs).owned (held x hx)
  tokens := tokens
  entries := by
    rw [List.Nodup, List.pairwise_map] at tokens ⊢
    refine tokens.imp_of_mem fun {x y} hx hy other same => other ?_
    exact State.owned_tx_unique (inv.live hs).owned (held x hx) (same ▸ held y hy)

/-- Where block and transport agree every completion is one of the array's (R44, R45, R289). -/
theorem State.tokensOk_used {s : State} (tokens : s.tokensOk) (hs : s.halted = false) {pre rest : List TxFlight}
    (used : s.transport.txUsed = pre ++ rest) :
    (∀ x ∈ pre, slotAt s.token.txBuffers x.tok = some x.entry) ∧ (pre.map (·.tok)).Nodup := by
  obtain ⟨-, same, nodup⟩ := s.tokensOk_iff.mp tokens hs
  constructor
  · intro x hx
    refine (same x.tok x.entry).mpr (List.mem_append_right _ (List.mem_map_of_mem (f := fun x : TxFlight => (x.tok, x.entry)) ?_))
    rw [used]
    exact List.mem_append_left _ hx
  · rw [← Transport.txBusy_eq, Transport.txBusy, used, List.map_append] at nodup
    exact (List.nodup_append.mp (List.nodup_append.mp nodup).2.1).1

/-- Fewer completions can be drained if more can. -/
theorem Drainable.of_append {s : State} {pre : List TxFlight} {x : TxFlight} (h : Drainable s (pre ++ [x])) : Drainable s pre where
  held y hy := h.held y (List.mem_append_left _ hy)
  inRing y hy := h.inRing y (List.mem_append_left _ hy)
  inPool y hy := h.inPool y (List.mem_append_left _ hy)
  tokens := (List.map_append ▸ h.tokens).of_append_left
  entries := (List.map_append ▸ h.entries).of_append_left

/-- The last of the completions is apart from the ones before it. -/
theorem Drainable.last {s : State} {pre : List TxFlight} {x : TxFlight} (h : Drainable s (pre ++ [x])) :
    ∀ y ∈ pre, y.tok ≠ x.tok ∧ y.entry ≠ x.entry := by
  have tokens := h.tokens
  have entries := h.entries
  rw [List.map_append, List.nodup_append] at tokens entries
  exact fun y hy => ⟨tokens.2.2 _ (List.mem_map_of_mem hy) _ (by simp), entries.2.2 _ (List.mem_map_of_mem hy) _ (by simp)⟩

theorem State.txDrained_nil {s : State} {rest : List TxFlight} (used : s.transport.txUsed = rest) : s.txDrained s [] rest := by
  subst used
  refine ⟨?_, rfl, rfl, nofun, fun _ _ => rfl, fun _ _ => rfl⟩
  simp only [List.map_nil, List.append_nil, List.isEmpty_nil, Bool.not_true, Bool.or_false]

/-- One more completion drained. -/
theorem State.txDrained_next {s u : State} {pre rest : List TxFlight} {x : TxFlight} (drained : s.txDrained u pre (x :: rest))
    (can : Drainable s (pre ++ [x])) : s.txDrained (u.drainedTx x) (pre ++ [x]) rest := by
  obtain ⟨same, slots, entries, gone, otherSlots, otherEntries⟩ := drained
  have apart := can.last
  have inPool : x.entry < u.pool.ent.length := by
    rw [entries]
    exact can.inPool x (by simp)
  have entry (e : Nat) : (u.drainedTx x).entry e =
      if e = x.entry then { u.entry x.entry with pktLen := 0#64, tag := .swDriver } else u.entry e :=
    State.entry_setEnt (s := u.setTxBuffer x.tok none) inPool _ e
  refine ⟨?same, by simpa [State.drainedTx] using slots, by simpa [State.drainedTx] using entries, fun y hy => ?gone,
    fun j away => ?otherSlots, fun e away => ?otherEntries⟩
  case same =>
    rw [State.drainedTx, same]
    simp [State.setFreeTx, State.setEnt, State.setTxBuffer, Transport.consumeTx]
  case gone =>
    rw [List.mem_append, List.mem_singleton] at hy
    rcases hy with before | rfl
    · obtain ⟨otherToken, otherEntry⟩ := apart y before
      rw [entry, if_neg otherEntry]
      exact ⟨(slotAt_set_ne otherToken none).trans (gone y before).1, (gone y before).2⟩
    · rw [entry, if_pos rfl, otherEntries _ fun z hz => (apart z hz).2.symm]
      exact ⟨slotAt_set_none_self _ _, rfl⟩
  case otherSlots =>
    exact (slotAt_set_ne (away x (by simp)) none).trans (otherSlots j fun y hy => away y (List.mem_append_left _ hy))
  case otherEntries =>
    rw [entry, if_neg (away x (by simp))]
    exact otherEntries e fun y hy => away y (List.mem_append_left _ hy)

/-- The completions `pre` are drained one after the other, one turn of the loop each. -/
theorem txDrain_turns {s : State} {pre rest : List TxFlight} (quiet : s.quiet) (used : s.transport.txUsed = pre ++ rest)
    (can : Drainable s pre) : ∃ u, s.txDrained u pre rest ∧ ∀ fuel, txDrain (fuel + pre.length) s = txDrain fuel u := by
  induction pre using List.reverseRecOn generalizing rest with
  | nil => exact ⟨s, State.txDrained_nil used, fun _ => rfl⟩
  | append_singleton pre x ih =>
    obtain ⟨u, drained, turns⟩ := ih (rest := x :: rest) (by rw [used, List.append_assoc]; rfl) can.of_append
    refine ⟨u.drainedTx x, State.txDrained_next drained can, fun fuel => ?_⟩
    obtain ⟨same, -, -, -, otherSlots, -⟩ := drained
    have quietNow : u.quiet := by rw [same]; exact quiet
    have front : u.transport.txUsed = x :: rest := by rw [same]
    have cfg : u.cfg = s.cfg := by rw [same]
    have held : slotAt u.token.txBuffers x.tok = some x.entry :=
      (otherSlots x.tok fun y hy => (can.last y hy).1.symm).trans (can.held x (by simp))
    rw [List.length_append, List.length_singleton, Nat.add_comm pre.length, ← Nat.add_assoc, turns,
      txDrain_turn quietNow front (by rw [cfg]; exact can.inRing x (by simp)) held]

/-- Settles O39: the loop has fuel for every completion reported, and stops at the first one it cannot drain. -/
theorem trTxrecycleDrainsAll : Obligations.TrTxrecycleDrainsAll := by
  intro s pre rest inv ready quiet used agree op hop
  have ⟨running, _⟩ := ready
  obtain ⟨held, nodup⟩ := agree.elim (fun tokens => State.tokensOk_used tokens running used) id
  obtain ⟨u, drained, turns⟩ := txDrain_turns quiet used (inv.drainable running held nodup)
  obtain ⟨fuel, enough⟩ : ∃ fuel, drainBound s = fuel + 1 + pre.length := by
    rw [drainBound, used, List.length_append]
    exact ⟨rest.length + s.transport.txInflight.length, by omega⟩
  refine ⟨u, drained, ?_⟩
  obtain ⟨same, -⟩ := drained
  have quietNow : u.quiet := by rw [same]; exact quiet
  have left : u.transport.txUsed = rest := by rw [same]
  have cfg : u.cfg = s.cfg := by rw [same]
  rw [exec_tokenTxrecycle ready hop, enough, turns, ← cfg]
  refine ⟨fun done => ?_, fun bad post stop => ⟨fun beyond => ?_, fun inRing absent => ?_⟩⟩
  · rw [txDrain_none quietNow (left.trans done)]
    rfl
  · rw [txDrain_beyond quietNow (left.trans stop) beyond]
    rfl
  · rw [txDrain_absent quietNow (left.trans stop) inRing absent]
    rfl

end Sys2Proof.Machine
end

section
/-! `TR.INIT` (R231) submission by submission: the pool it creates, what the transport answers while it keeps its contract, which slots and
which list hold which buffers, and the halt at the first submission that is answered otherwise. -/

namespace Sys2Proof.Machine

/-! ## The pool that `TR.INIT` creates (R181, R51) -/

theorem State.askBacking_begins (s : State) (bytes : Nat) : (s.askBacking bytes).2.env.begins = s.env.begins := by
  unfold State.askBacking
  split <;> rfl

theorem State.askBacking_headers (s : State) (bytes : Nat) : (s.askBacking bytes).2.env.headers = s.env.headers := by
  unfold State.askBacking
  split <;> rfl

/-- The bytes of the pool that `TR.INIT` creates. -/
def tokenPoolBytes (p : Params) : Nat := 2 * QS p * p.poolEsz.toNat

/-- `TR.INIT` with its pool granted and nothing submitted yet (R231). -/
def State.trStart (s : State) : State :=
  State.setFreeTx { (s.askBacking (tokenPoolBytes s.cfg)).2.drawContents (tokenPoolBytes s.cfg) with
    pool := Pool.fresh (2 * QS s.cfg) s.cfg.poolEsz.toNat } []

theorem State.trStart_same (s : State) : s.trStart = { s with
    pool := Pool.fresh (2 * QS s.cfg) s.cfg.poolEsz.toNat, token := { s.token with freeTx := [] }
    mem := s.trStart.mem, env := s.trStart.env } := by
  rw [State.trStart, s.askBacking_frame]
  rfl

@[simp] theorem State.trStart_transport (s : State) : s.trStart.transport = s.transport := by rw [s.trStart_same]
@[simp] theorem State.trStart_nic (s : State) : s.trStart.nic = s.nic := by rw [s.trStart_same]
@[simp] theorem State.trStart_begins (s : State) : s.trStart.env.begins = s.env.begins := s.askBacking_begins _
@[simp] theorem State.trStart_headers (s : State) : s.trStart.env.headers = s.env.headers := s.askBacking_headers _
@[simp] theorem State.trStart_sched (s : State) : s.trStart.env.sched = s.env.sched := s.askBacking_sched _

section
variable {s : State}

/-- The contents of the granted pool (R51). -/
theorem State.trStart_mem (answer : (s.askBacking (tokenPoolBytes s.cfg)).1 = true) :
    (∀ k < tokenPoolBytes s.cfg, s.trStart.mem.get (s.cfg.poolPBase + BitVec.ofNat 64 k).toNat = s.freshByte k) ∧
      bytesKept s.mem s.trStart.mem (inBytes s.cfg.poolPBase (tokenPoolBytes s.cfg)) := by
  obtain ⟨drawn, kept, -⟩ := State.drawContents_of_granted (Prod.ext answer rfl : s.askBacking (tokenPoolBytes s.cfg) = (true, _))
  exact ⟨drawn, kept⟩

/-- `TR.INIT` behind its checks, with its pool granted (R231). -/
theorem trInitBody_granted (nonzero : s.cfg.poolEsz ≠ 0#32) (answer : (s.askBacking (tokenPoolBytes s.cfg)).1 = true) :
    trInitBody s =
      if (submitRx (List.range (QS s.cfg)) s.trStart).halted then submitRx (List.range (QS s.cfg)) s.trStart
      else State.ok { (List.range (QS s.cfg)).foldl prefillTx (submitRx (List.range (QS s.cfg)) s.trStart) with inited := true } := by
  have countFits : 2 * QS s.cfg < 2 ^ 32 := by
    have := QS_lt s.cfg
    omega
  have pos : 0 < s.cfg.poolEsz.toNat := Nat.pos_of_ne_zero fun zero => nonzero (BitVec.eq_of_toNat_eq zero)
  have asked : s.askBacking (2 * QS s.cfg * s.cfg.poolEsz.toNat) = (true, (s.askBacking (tokenPoolBytes s.cfg)).2) := Prod.ext answer rfl
  rw [trInitBody, State.poolCreate_asked countFits s.cfg.poolEsz.isLt (Or.inr pos) asked]
  rfl

theorem exec_trInit {op : Instr} (hs : s.halted = false) (family : s.cfg.family = .token) (closed : s.inited = false)
    (absent : s.pool.present = false) (hop : op ∈ [Instr.trInit, .devInit]) : exec op s = .next (trInitBody s) := by
  rw [exec_of_forms (r := execTrInit s) hop rfl (byFamily_token hs family execCrInit execTrInit), execTrInit,
    (initCheck_none _ s).mpr ⟨hs, family, closed, absent⟩]
  rfl

end

/-! ## The transport during the initial fill (R287) -/

/-- No device step counts a begin call or consumes a completion. -/
theorem envStep_counters (s : State) (e : EnvStep) :
    (envStep s e).transport.rxCount = s.transport.rxCount ∧ (envStep s e).transport.rxConsumed = s.transport.rxConsumed := by
  cases e with
  | nicRxBegin q f => simp only [envStep]; rw [nicRxBegin_frame]; exact ⟨rfl, rfl⟩
  | nicTxBegin q slot sta => simp only [envStep]; rw [nicTxBegin_frame]; exact ⟨rfl, rfl⟩
  | nicWrite k => simp only [envStep]; rw [nicWrite_frame]; exact ⟨rfl, rfl⟩
  | nicRxwb q f => simp only [envStep]; rw [nicRxwb_frame]; exact ⟨rfl, rfl⟩
  | nicTxdone q slot sta => simp only [envStep]; rw [nicTxdone_frame]; exact ⟨rfl, rfl⟩
  | vqDevrx k len bytes =>
    simp only [envStep, vqDevrx]
    split
    · exact ⟨rfl, rfl⟩
    · split <;> exact ⟨rfl, rfl⟩
  | vqDevtx k => simp only [envStep, vqDevtx]; split <;> exact ⟨rfl, rfl⟩

theorem State.envTurn_counters (s : State) :
    s.envTurn.transport.rxCount = s.transport.rxCount ∧ s.envTurn.transport.rxConsumed = s.transport.rxConsumed := by
  have steps : ∀ (es : List EnvStep) (t : State), (es.foldl envStep t).transport.rxCount = t.transport.rxCount ∧
      (es.foldl envStep t).transport.rxConsumed = t.transport.rxConsumed := by
    intro es
    induction es with
    | nil => exact fun t => ⟨rfl, rfl⟩
    | cons e es ih => exact fun t => ⟨(ih _).1.trans (envStep_counters t e).1, (ih _).2.trans (envStep_counters t e).2⟩
  unfold State.envTurn
  split
  · exact ⟨rfl, rfl⟩
  · exact steps _ _

/-- The transport after `n` submissions of the initial fill: their count, nothing consumed, and no token in use but the first `n`. -/
structure Counted (n : Nat) (t : Transport) : Prop where
  count : t.rxCount = n
  consumed : t.rxConsumed = false
  busy : ∀ tok ∈ t.rxHeld.map Prod.fst, tok < n

theorem Counted.turn {n : Nat} {s : State} (h : Counted n s.transport) : Counted n s.envTurn.transport where
  count := s.envTurn_counters.1.trans h.count
  consumed := s.envTurn_counters.2.trans h.consumed
  busy tok ht := h.busy tok ((s.envTurn_envChange.evolves.rxHeld.map Prod.fst).mem_iff.mp ht)

theorem Counted.beginRx {n : Nat} {t : Transport} (h : Counted n t) (i : Nat) : Counted (n + 1) (t.beginRx n i) where
  count := congrArg (· + 1) h.count
  consumed := h.consumed
  busy tok ht := by
    rw [((Transport.rxHeld_beginRx t n i).map Prod.fst).mem_iff, List.map_cons, List.mem_cons] at ht
    rcases ht with rfl | earlier
    · exact Nat.lt_succ_self _
    · exact Nat.lt_succ_of_lt (h.busy tok earlier)

/-- During the initial fill a transport that keeps its contract gives the count of submissions as the token (R287). -/
theorem Counted.rxChoice {n k : Nat} {s : State} (h : Counted n s.transport) (more : n < QS s.cfg) (answer : s.env.answer = .contract k) :
    s.rxChoice = .ok n := by
  have fresh : n ∉ s.transport.rxBusy := by
    rw [Transport.rxBusy_eq]
    exact fun inUse => Nat.lt_irrefl n (h.busy n inUse)
  obtain ⟨tok, -, -, filling, choice⟩ := chooseToken_contract (count := s.transport.rxCount) (consumed := s.transport.rxConsumed) k
    ⟨n, more, fresh⟩ fun _ _ => h.count.symm ▸ fresh
  rw [State.rxChoice, answer, choice, filling (h.count.symm ▸ more) h.consumed, h.count]

/-! ## The block while `TR.INIT` fills its arrays and its list -/

/-- An entry as `TR.INIT` puts it on the free-list: with its header (R231, R293). -/
def prefilled (p : Params) : Entry := ⟨.swDriver, p.tokHdrLen.setWidth 64, 0#64, p.poolEsz.setWidth 64, none⟩

/-- `TR.INIT` begun at `s` has handed over `m` entries, filled the slots of the first `n` tokens, and put `k` more entries on the
free-list. -/
structure TokenFilled (s : State) (n m k : Nat) (t : State) : Prop where
  same : t = { s with
    pool := ⟨true, BitVec.ofNat 32 (2 * QS s.cfg), s.cfg.poolEsz, t.pool.ent⟩
    token := ⟨t.token.rxBuffers, s.token.txBuffers, t.token.freeTx⟩
    mem := t.mem, nic := t.nic, transport := t.transport, env := t.env }
  entries : t.pool.ent.length = 2 * QS s.cfg
  slots : t.token.rxBuffers.length = s.token.rxBuffers.length
  filled : ∀ j < n, ∃ i, slotAt t.token.rxBuffers j = some i ∧ t.entry i = handedOver s.cfg ∧ (s.cfg.pick = .least → i = j)
  later : ∀ j, n ≤ j → slotAt t.token.rxBuffers j = slotAt s.token.rxBuffers j
  listed : t.token.freeTx.length = k
  headed : ∀ i ∈ t.token.freeTx, t.entry i = prefilled s.cfg
  order : s.cfg.pick = .least → t.token.freeTx = (List.range k).map (· + m)
  hardware : t.pool.count .hw = m
  driver : t.pool.count .swDriver = k
  stock : t.pool.count .free + m + k = 2 * QS s.cfg
  least : s.cfg.pick = .least → ∀ e < 2 * QS s.cfg, ((t.entry e).tag = .free ↔ m + k ≤ e)

section
variable {s t u : State} {n m k i : Nat}

theorem TokenFilled.cfg (h : TokenFilled s n m k t) : t.cfg = s.cfg := by rw [h.same]
theorem TokenFilled.halted (h : TokenFilled s n m k t) : t.halted = s.halted := by rw [h.same]
theorem TokenFilled.present (h : TokenFilled s n m k t) : t.pool.present = true := by rw [h.same]
theorem TokenFilled.esz (h : TokenFilled s n m k t) : t.pool.esz = s.cfg.poolEsz := by rw [h.same]
theorem TokenFilled.txBuffers (h : TokenFilled s n m k t) : t.token.txBuffers = s.token.txBuffers := by rw [h.same]

theorem TokenFilled.count_eq (h : TokenFilled s n m k t) : t.pool.n.toNat = 2 * QS s.cfg := by
  have := QS_lt s.cfg
  rw [h.same]
  exact (BitVec.toNat_ofNat _ _).trans (Nat.mod_eq_of_lt (by omega))

theorem TokenFilled.physOf (h : TokenFilled s n m k t) (e : Nat) : t.physOf e = phys s.cfg s.cfg.poolEsz e := by
  rw [State.physOf, h.cfg, h.esz]

/-- Only the world around the block differs. -/
theorem TokenFilled.around (h : TokenFilled s n m k t)
    (same : u = { t with mem := u.mem, nic := u.nic, transport := u.transport, env := u.env }) : TokenFilled s n m k u := by
  have pool : u.pool = t.pool := by rw [same]
  have token : u.token = t.token := by rw [same]
  have entry (e : Nat) : u.entry e = t.entry e := by rw [State.entry, pool]; rfl
  refine ⟨by rw [same, h.same], ?_, ?_, ?_, ?_, ?_, ?_, ?_, ?_, ?_, ?_, ?_⟩
  all_goals simp only [pool, token, entry]
  exacts [h.entries, h.slots, h.filled, h.later, h.listed, h.headed, h.order, h.hardware, h.driver, h.stock, h.least]

theorem TokenFilled.start (s : State) : TokenFilled s 0 0 0 s.trStart := by
  have pool : s.trStart.pool = Pool.fresh (2 * QS s.cfg) s.cfg.poolEsz.toNat := rfl
  have token : s.trStart.token = { s.token with freeTx := [] } := by rw [s.trStart_same]
  have free (e : Nat) : (s.trStart.entry e).tag = .free := by
    simp only [State.entry, pool, Pool.fresh, List.getD, List.getElem?_replicate]
    split <;> rfl
  refine ⟨?same, by rw [pool]; exact List.length_replicate, by rw [token], nofun, fun j _ => by rw [token], by rw [token]; rfl,
    by rw [token]; nofun, fun _ => by rw [token]; rfl, ?hardware, ?driver, ?stock, fun _ e _ => ?least⟩
  case same =>
    rw [s.trStart_same, Pool.fresh, BitVec.ofNat_toNat, BitVec.setWidth_eq]
  case hardware => rw [pool]; exact Pool.count_fresh _ _ .hw
  case driver => rw [pool]; exact Pool.count_fresh _ _ .swDriver
  case stock => rw [pool]; exact Pool.count_fresh _ _ .free
  case least => simp only [free, Nat.add_zero, Nat.zero_le]

/-- There is an entry for the next buffer. -/
theorem TokenFilled.lease (h : TokenFilled s n m k t) (more : m + k < 2 * QS s.cfg) : ∃ i, t.lease = some i :=
  State.exists_lease h.present (by have := h.stock; omega)

/-- With `PICK` = least index the entries are leased in rising order. -/
theorem TokenFilled.lease_eq (h : TokenFilled s n m k t) (lease : t.lease = some i) (more : m + k < 2 * QS s.cfg)
    (pick : s.cfg.pick = .least) : i = m + k := by
  obtain ⟨-, inPool, free⟩ := State.lease_some lease
  have before := State.lease_least lease (h.cfg.symm ▸ pick)
  have lower := (h.least pick i (h.entries ▸ inPool)).mp free
  have upper : ¬ m + k < i := fun less => before _ less ((h.least pick _ more).mpr le_rfl)
  omega

/-- The next entry handed over (R231), before anything is on the free-list. -/
theorem TokenFilled.handOver (h : TokenFilled s n m 0 t) (lease : t.lease = some i) (more : m < 2 * QS s.cfg) :
    TokenFilled s n (m + 1) 0 (t.handedOver i) := by
  obtain ⟨-, inPool, free⟩ := State.lease_some lease
  have entry (e : Nat) : (t.handedOver i).entry e = if e = i then ⟨.hw, 0#64, 0#64, t.pool.esz.setWidth 64, none⟩ else t.entry e :=
    State.entry_setEnt inPool _ e
  have count (x : Tag) := State.count_setEnt inPool (fun _ => ⟨.hw, 0#64, 0#64, t.pool.esz.setWidth 64, none⟩) x
  have empty : t.token.freeTx = [] := List.eq_nil_of_length_eq_zero h.listed
  refine ⟨by rw [State.handedOver, h.same]; rfl, by simpa [State.handedOver] using h.entries, h.slots, fun j hj => ?filled, h.later,
    h.listed, ?headed, fun _ => empty, ?hardware, ?driver, ?stock, fun pick e he => ?least⟩
  case filled =>
    obtain ⟨i', held, record, order⟩ := h.filled j hj
    have other : i' ≠ i := by
      rintro rfl
      rw [record] at free
      cases free
    exact ⟨i', held, by rw [entry, if_neg other, record], order⟩
  case headed =>
    rw [State.handedOver, State.setEnt_token, empty]
    nofun
  case least =>
    have := h.lease_eq lease more pick
    have := h.least pick e he
    rw [entry]
    split
    · simp only [reduceCtorEq, false_iff]
      omega
    · rw [this]
      omega
  case hardware =>
    have moved := count .hw
    have before := h.hardware
    simp only [free, reduceCtorEq, if_true, if_false] at moved
    rw [State.handedOver]
    omega
  case driver =>
    have moved := count .swDriver
    have before := h.driver
    simp only [free, reduceCtorEq, if_false] at moved
    rw [State.handedOver]
    omega
  case stock =>
    have moved := count .free
    have before := h.stock
    simp only [free, reduceCtorEq, if_true, if_false] at moved
    rw [State.handedOver]
    omega

/-- The slot of the next token filled (R231). -/
theorem TokenFilled.fillSlot (h : TokenFilled s n m k t) (inRing : n < s.token.rxBuffers.length) (entry : t.entry i = handedOver s.cfg)
    (order : s.cfg.pick = .least → i = n) : TokenFilled s (n + 1) m k (t.setRxBuffer n (some i)) := by
  refine ⟨by rw [State.setRxBuffer, h.same], h.entries, by simpa using h.slots, fun j hj => ?filled, fun j hj => ?later, h.listed,
    h.headed, h.order, h.hardware, h.driver, h.stock, h.least⟩
  case filled =>
    rcases Nat.lt_succ_iff_lt_or_eq.mp hj with earlier | rfl
    · obtain ⟨i', held, record, order'⟩ := h.filled j earlier
      exact ⟨i', (slotAt_set_ne (Nat.ne_of_lt earlier) _).trans held, record, order'⟩
    · exact ⟨i, slotAt_set_self (h.slots.symm ▸ inRing) _, entry, order⟩
  case later => exact (slotAt_set_ne (by omega) _).trans (h.later j (by omega))

/-! ## Submissions (R231) -/

/-- One submission of `TR.INIT`, behind its lease. -/
theorem submitRx_lease {tok : Nat} {ts : List Nat} (lease : t.lease = some i) : submitRx (tok :: ts) t =
    if ((t.handedOver i).receiveBegin i).1 = .ok tok then submitRx ts (((t.handedOver i).receiveBegin i).2.setRxBuffer tok (some i))
    else ((t.handedOver i).receiveBegin i).2.raise .tokenMismatch := by
  have entry : (t.clearEnt i).setTag i .hw = t.handedOver i := by
    simp [State.handedOver, State.setEnt, State.setTag, State.clearEnt, List.modify_modify_eq, Function.comp_def]
  rw [← entry, submitRx, lease]

/-- `t` has become `u` in `d` submissions, as far as the environment sees it. -/
structure Submits (d : Nat) (t u : State) : Prop where
  begins : u.env.begins = t.env.begins.drop d
  headers : u.env.headers = t.env.headers
  quiet : t.quiet → u.quiet ∧ u.mem = t.mem ∧ u.nic = t.nic

theorem Submits.refl (t : State) : Submits 0 t t := ⟨rfl, rfl, fun quiet => ⟨quiet, rfl, rfl⟩⟩

theorem Submits.trans {c d : Nat} {v : State} (h : Submits c t u) (k : Submits d u v) : Submits (c + d) t v where
  begins := by rw [k.begins, h.begins, List.drop_drop]
  headers := k.headers.trans h.headers
  quiet before := by
    obtain ⟨quiet, mem, nic⟩ := h.quiet before
    obtain ⟨quiet', mem', nic'⟩ := k.quiet quiet
    exact ⟨quiet', mem'.trans mem, nic'.trans nic⟩

/-- A begin call takes one answer and, with no device step in between, touches neither memory nor the device. -/
theorem Submits.begin (same : u = { (t.handedOver i).envTurn with
    token := u.token, transport := u.transport, env := (t.handedOver i).envTurn.env.answered }) : Submits 1 t u where
  begins := by
    rw [same, Env.answered_begins, State.envTurn_env, List.drop_one]
    rfl
  headers := by
    rw [same, Env.answered_headers, State.envTurn_env]
    rfl
  quiet before := by
    have still : (t.handedOver i).envTurn = t.handedOver i := State.envTurn_quiet before
    rw [same, still]
    exact ⟨(Env.answered_sched _).trans before, rfl, rfl⟩

/-- The next submission, under the token expected. -/
theorem TokenFilled.submit (h : TokenFilled s n n 0 t) (counted : Counted n t.transport) (more : n < QS s.cfg)
    (slots : s.token.rxBuffers.length = QS s.cfg) (answers : ∀ a ∈ t.env.begins.head?, ∃ k, a = .contract k) (ts : List Nat) :
    ∃ u, submitRx (n :: ts) t = submitRx ts u ∧ TokenFilled s (n + 1) (n + 1) 0 u ∧ Counted (n + 1) u.transport ∧ Submits 1 t u := by
  obtain ⟨i, lease⟩ := h.lease (by omega)
  have handed := h.handOver lease (by omega)
  have turned : Counted n (t.handedOver i).envTurn.transport := Counted.turn (s := t.handedOver i) counted
  obtain ⟨k, answer⟩ : ∃ k, (t.handedOver i).envTurn.env.answer = .contract k :=
    Env.answer_contract (by rw [State.envTurn_env]; exact answers)
  have choice := turned.rxChoice (by rw [State.envTurn_cfg, handed.cfg]; exact more) answer
  have begun := handed.around (u := { (t.handedOver i).envTurn with
    transport := (t.handedOver i).envTurn.transport.beginRx n i, env := (t.handedOver i).envTurn.env.answered })
    (by rw [(t.handedOver i).envTurn_envChange.same])
  have entry : (t.handedOver i).entry i = handedOver s.cfg := by
    rw [State.handedOver, State.entry_setEnt_self (State.lease_some lease).2.1, h.esz]
    rfl
  refine ⟨_, ?_, begun.fillSlot (i := i) (slots.symm ▸ more) ?_ fun pick => h.lease_eq lease (by omega) pick, turned.beginRx i,
    .begin (i := i) rfl⟩
  · rw [submitRx_lease lease, State.receiveBegin_ok choice]
    exact if_pos rfl
  · exact ((t.handedOver i).envTurn_envChange.entry i).trans entry

/-- The submissions that the transport answers as its contract says. -/
theorem TokenFilled.submits {d : Nat} (h : TokenFilled s n n 0 t) (counted : Counted n t.transport) (fits : n + d ≤ QS s.cfg)
    (slots : s.token.rxBuffers.length = QS s.cfg) (answers : ∀ a ∈ t.env.begins.take d, ∃ k, a = .contract k) (ts : List Nat) :
    ∃ u, submitRx (List.range' n d ++ ts) t = submitRx ts u ∧ TokenFilled s (n + d) (n + d) 0 u ∧ Counted (n + d) u.transport ∧
      Submits d t u := by
  induction d generalizing n t with
  | zero => exact ⟨t, rfl, h, counted, .refl t⟩
  | succ d ih =>
    obtain ⟨u, first, filled, counted', one⟩ := h.submit counted (by omega) slots
      (fun a ha => answers a (List.mem_of_mem_head? (by rwa [List.head?_take, if_neg d.succ_ne_zero]))) (List.range' (n + 1) d ++ ts)
    obtain ⟨v, rest, filled', counted'', more⟩ := ih filled counted' (by omega) fun a ha => answers a (by
      rw [one.begins, List.take_drop, Nat.add_comm] at ha
      exact List.mem_of_mem_drop ha)
    refine ⟨v, first.trans rest, ?_, ?_, ?_⟩
    · rwa [Nat.add_right_comm] at filled'
    · rwa [Nat.add_right_comm] at counted''
    · have := one.trans more
      rwa [Nat.add_comm] at this

/-- A submission answered with another token or with `Full`: the halt, with the entry handed over and no slot filled (R231, R304). -/
theorem TokenFilled.mismatch {tok : Nat} (h : TokenFilled s n m 0 t) (lease : t.lease = some i) (more : m < 2 * QS s.cfg)
    (other : (t.handedOver i).envTurn.rxChoice ≠ .ok tok) (ts : List Nat) :
    ∃ u, submitRx (tok :: ts) t = u.raise .tokenMismatch ∧ TokenFilled s n (m + 1) 0 u ∧ Submits 1 t u := by
  have handed := h.handOver lease more
  have turn := (t.handedOver i).envTurn_envChange.same
  cases choice : (t.handedOver i).envTurn.rxChoice with
  | full =>
    refine ⟨{ (t.handedOver i).envTurn with env := (t.handedOver i).envTurn.env.answered }, ?_, handed.around (by rw [turn]),
      .begin (i := i) rfl⟩
    rw [submitRx_lease lease, State.receiveBegin_full choice]
    exact if_neg nofun
  | ok tok' =>
    refine ⟨{ (t.handedOver i).envTurn with
      transport := (t.handedOver i).envTurn.transport.beginRx tok' i, env := (t.handedOver i).envTurn.env.answered }, ?_,
      handed.around (by rw [turn]), .begin (i := i) rfl⟩
    rw [submitRx_lease lease, State.receiveBegin_ok choice]
    exact if_neg fun same => other (choice.trans same)

end

end Sys2Proof.Machine
end

section
/-! The two ways `TR.INIT` goes on from its submissions (R231): the halt over a transport that breaks its contract, and the free-list with a
header in every buffer (R239, R293). -/

namespace Sys2Proof.Machine

section
variable {s t u : State} {n m k i : Nat}

/-- The numbers below `n`, cut at `b`. -/
theorem range_split {b n : Nat} (hb : b ≤ n) : List.range n = List.range' 0 b ++ List.range' b (n - b) := by
  have joined := List.range'_append_1 (s := 0) (m := b) (n := n - b)
  rw [Nat.zero_add, Nat.add_sub_cancel' hb] at joined
  rw [List.range_eq_range', joined]

theorem Counted.reset : Counted 0 {} := ⟨rfl, rfl, nofun⟩

/-- Settles O33: the submissions before the bad answer fill their slots, and that answer meets the check of the rule. -/
theorem trInitChecksTokens : Obligations.TrInitChecksTokens := by
  intro s before a rest valid slots hs family closed absent nonzero answer begins short contract fresh bad op hop
  have answer' : (s.askBacking (tokenPoolBytes s.cfg)).1 = true := answer
  obtain ⟨u, earlier, filled, submits⟩ : ∃ u, submitRx (List.range (QS s.cfg)) s.trStart =
      submitRx (List.range' before.length (QS s.cfg - before.length)) u ∧ TokenFilled s before.length before.length 0 u ∧
        Submits before.length s.trStart u := by
    rcases fresh with rfl | reset
    · exact ⟨_, by rw [range_split (Nat.zero_le _)]; rfl, .start s, .refl _⟩
    · obtain ⟨u, run, filled, -, submits⟩ := (TokenFilled.start s).submits (d := before.length)
        (by rw [State.trStart_transport, reset]; exact .reset) (by omega) slots
        (by rw [State.trStart_begins, begins, List.take_left']; exacts [contract, rfl])
        (List.range' before.length (QS s.cfg - before.length))
      rw [Nat.zero_add] at filled
      exact ⟨u, by rw [range_split short.le, run], filled, submits⟩
  obtain ⟨i, lease⟩ := filled.lease (by omega)
  have next : (u.handedOver i).envTurn.env.begins = a :: rest := by
    rw [State.envTurn_env]
    refine submits.begins.trans ?_
    rw [State.trStart_begins, begins, List.drop_left']
    rfl
  have other : (u.handedOver i).envTurn.rxChoice ≠ .ok before.length := by
    rcases bad with rfl | ⟨tok, wrong, rfl⟩
    · rw [(State.choices_faultyFull (by rw [next]; rfl)).1]
      nofun
    · rw [(State.choices_faulty next).1]
      exact fun same => wrong (BeginResult.ok.inj same)
  obtain ⟨v, halts, filled', last⟩ := filled.mismatch lease (by omega) other
    (List.range' (before.length + 1) (QS s.cfg - before.length - 1))
  have tokens : List.range' before.length (QS s.cfg - before.length) =
      before.length :: List.range' (before.length + 1) (QS s.cfg - before.length - 1) := by
    rw [← List.range'_succ, Nat.sub_add_cancel (by omega)]
  have run : trInitBody s = v.raise .tokenMismatch := by
    rw [trInitBody_granted nonzero answer', earlier, tokens, halts]
    exact if_pos rfl
  rw [exec_trInit hs family closed absent hop, run]
  have empty : v.token.freeTx = [] := List.eq_nil_of_length_eq_zero filled'.listed
  refine ⟨_, rfl, ?same, filled'.present, filled'.count_eq, filled'.esz, filled'.hardware, ?stock, filled'.slots.trans slots,
    fun j hj => ?filled, filled'.later, fun quiet => ?memory⟩
  case same =>
    have same := filled'.same
    rw [empty] at same
    rw [State.raise, same]
    rfl
  case stock => exact Nat.eq_sub_of_add_eq filled'.stock
  case filled =>
    obtain ⟨i', held, record, -⟩ := filled'.filled j hj
    exact ⟨i', held, congrArg Entry.tag record⟩
  case memory =>
    obtain ⟨-, mem, nic⟩ := (submits.trans last).quiet (by rw [State.quiet, State.trStart_sched]; exact quiet)
    obtain ⟨drawn, kept⟩ := State.trStart_mem answer'
    rw [← mem] at drawn kept
    exact ⟨nic.trans s.trStart_nic, kept, drawn⟩

/-! ## One buffer to the free-list (R231, R293) -/

/-- Entry `i` on the free-list with the record `e`. -/
def State.listTx (s : State) (i : Nat) (e : Entry) : State := (s.setEnt i fun _ => e).setFreeTx (s.token.freeTx ++ [i])

theorem TokenFilled.listTx (h : TokenFilled s n m k t) (more : m + k < 2 * QS s.cfg) (lease : t.lease = some i) :
    TokenFilled s n m (k + 1) (t.listTx i (prefilled s.cfg)) := by
  obtain ⟨-, inPool, free⟩ := State.lease_some lease
  have entry (e : Nat) : (t.listTx i (prefilled s.cfg)).entry e = if e = i then prefilled s.cfg else t.entry e :=
    State.entry_setEnt inPool _ e
  have count (x : Tag) := State.count_setEnt inPool (fun _ => prefilled s.cfg) x
  have busy {e : Nat} {r : Entry} (record : t.entry e = r) (tag : r.tag ≠ .free) : e ≠ i := by
    rintro rfl
    exact tag (record ▸ free)
  have listed : (t.listTx i (prefilled s.cfg)).token.freeTx = t.token.freeTx ++ [i] := rfl
  refine ⟨by rw [State.listTx, h.same]; rfl, by simpa [State.listTx] using h.entries, h.slots, fun j hj => ?filled, h.later, ?listed,
    fun e he => ?headed, fun pick => ?order, ?hardware, ?driver, ?stock, fun pick e he => ?least⟩
  case filled =>
    obtain ⟨i', held, record, order⟩ := h.filled j hj
    exact ⟨i', held, by rw [entry, if_neg (busy record nofun), record], order⟩
  case listed => rw [listed, List.length_append, h.listed, List.length_singleton]
  case headed =>
    rw [entry]
    split
    · rfl
    next other =>
      rw [listed, List.mem_append, List.mem_singleton] at he
      exact h.headed e (he.resolve_right other)
  case order =>
    rw [listed, h.order pick, h.lease_eq lease more pick, List.range_succ, List.map_append, Nat.add_comm m k]
    rfl
  case hardware =>
    have moved := count .hw
    have before := h.hardware
    simp only [free, prefilled, reduceCtorEq, if_false] at moved
    exact moved.trans before
  case driver =>
    have moved := count .swDriver
    have before := h.driver
    simp only [free, prefilled, reduceCtorEq, if_true, if_false] at moved
    exact moved.trans (congrArg (· + 1) before)
  case stock =>
    have moved := count .free
    have before := h.stock
    simp only [free, prefilled, reduceCtorEq, if_true, if_false] at moved
    rw [State.listTx, State.setFreeTx_pool, prefilled]
    omega
  case least =>
    have := h.lease_eq lease more pick
    have := h.least pick e he
    rw [entry]
    split
    · simp only [prefilled, reduceCtorEq, false_iff]
      omega
    · rw [this]
      omega

/-- Emptying a transmit slot that is empty. -/
theorem State.setTxBuffer_none (empty : slotAt s.token.txBuffers k = none) : s.setTxBuffer k none = s := by
  rw [State.setTxBuffer, set_none_of_slotAt_none empty]

/-- One turn of the loop: the header is filled, and the entry is on the list. -/
theorem TokenFilled.prefillTx_eq (h : TokenFilled s n m k t) (lease : t.lease = some i) (empty : slotAt s.token.txBuffers k = none) :
    prefillTx t k = (t.fillHeader i).2.listTx i (prefilled s.cfg) := by
  have called := t.fillHeader_envChange i
  have header : (t.fillHeader i).1 = s.cfg.tokHdrLen.setWidth 64 := by rw [State.fillHeader, State.envTurn_cfg, h.cfg]
  have clear : slotAt (t.fillHeader i).2.token.txBuffers k = none := by rw [called.token, h.txBuffers, empty]
  rw [prefillTx, lease, State.listTx, prefilled, ← header, ← h.esz]
  exact State.setTxBuffer_none clear

theorem TokenFilled.prefill (h : TokenFilled s n m k t) (more : m + k < 2 * QS s.cfg) (lease : t.lease = some i)
    (empty : slotAt s.token.txBuffers k = none) : TokenFilled s n m (k + 1) (prefillTx t k) := by
  have called := t.fillHeader_envChange i
  rw [h.prefillTx_eq lease empty]
  exact (h.around called.same).listTx more (called.lease.trans lease)

/-! ## The headers in memory (R293, R51) -/

/-- A run of bytes cut short leaves what was there behind the cut. -/
theorem listedOr_take (bytes : List Byte) (len b : Nat) (old : Byte) :
    listedOr (bytes.take len) b old = if b < len then listedOr bytes b old else old := by
  rw [listedOr, listedOr, List.getElem?_take]
  split <;> rfl

/-- A byte of an entry of a pool without a wrap, from the pool's base on (R14). -/
theorem phys_add (p : Params) (esz : BitVec 32) (i b : Nat) :
    phys p esz i + BitVec.ofNat 64 b = p.poolPBase + BitVec.ofNat 64 (i * esz.toNat + b) := by
  rw [phys, BitVec.add_assoc, ← BitVec.ofNat_add]

/-- Entries do not overlap (R14, R76). -/
theorem not_inBytes_other_entry {p : Params} {esz : BitVec 32} {count i e b len : Nat} (fits : count * esz.toNat ≤ 2 ^ 64)
    (hi : i < count) (he : e < count) (other : e ≠ i) (hb : b < esz.toNat) (hlen : len ≤ esz.toNat) :
    ¬ inBytes (phys p esz i) len (phys p esz e + BitVec.ofNat 64 b).toNat := by
  have last := slotNumber_lt he hb
  have upper := Nat.mul_le_mul_right esz.toNat (Nat.succ_le_of_lt hi)
  rw [Nat.succ_mul] at upper
  rw [phys_add, phys, inBytes_offset_iff (by omega) (by omega)]
  rintro ⟨low, high⟩
  have inEntry : e * esz.toNat + b - i * esz.toNat < esz.toNat := by omega
  obtain ⟨same, -⟩ := slotNumber_inj hb inEntry (q := e) (r := i) (by omega)
  exact other same

/-- The elements of a list with one more at its end. -/
theorem getElem?_concat_eq_some {α : Type} {l : List α} {x y : α} {j : Nat} (h : (l ++ [x])[j]? = some y) :
    l[j]? = some y ∨ (j = l.length ∧ y = x) := by
  rw [List.getElem?_append] at h
  split at h
  · exact Or.inl h
  next beyond =>
    rw [List.getElem?_singleton] at h
    split at h
    · exact Or.inr ⟨by omega, (Option.some.inj h).symm⟩
    · cases h

/-- `TR.INIT` begun at `s` without a device step in between has put `k` buffers on the free-list: each has the header drawn for it, every
other byte of the pool its drawn contents. -/
structure Headed (s : State) (k : Nat) (t : State) : Prop where
  quiet : t.quiet
  nic : t.nic = s.nic
  headers : t.env.headers = s.env.headers.drop k
  kept : bytesKept s.mem t.mem (inBytes s.cfg.poolPBase (tokenPoolBytes s.cfg))
  header : ∀ j i, t.token.freeTx[j]? = some i → ∀ b < s.cfg.poolEsz.toNat,
    t.mem.get (phys s.cfg s.cfg.poolEsz i + BitVec.ofNat 64 b).toNat =
      if b < s.cfg.tokHdrLen.toNat then listedOr (s.env.headers.getD j []) b (s.freshByte (i * s.cfg.poolEsz.toNat + b))
      else s.freshByte (i * s.cfg.poolEsz.toNat + b)
  fresh : ∀ i < 2 * QS s.cfg, i ∉ t.token.freeTx → ∀ b < s.cfg.poolEsz.toNat,
    t.mem.get (phys s.cfg s.cfg.poolEsz i + BitVec.ofNat 64 b).toNat = s.freshByte (i * s.cfg.poolEsz.toNat + b)

/-- With nothing on the list the pool has its drawn contents. -/
theorem Headed.start (answer : (s.askBacking (tokenPoolBytes s.cfg)).1 = true) (quiet : t.quiet) (nic : t.nic = s.nic)
    (headers : t.env.headers = s.env.headers) (mem : t.mem = s.trStart.mem) (empty : t.token.freeTx = []) : Headed s 0 t := by
  obtain ⟨drawn, kept⟩ := State.trStart_mem answer
  rw [← mem] at drawn kept
  refine ⟨quiet, nic, headers, kept, fun j i listed => ?_, fun i hi _ b hb => ?_⟩
  · rw [empty] at listed
    cases listed
  · rw [phys_add]
    exact drawn _ (slotNumber_lt hi hb)

theorem validParams_header {p : Params} (h : validParams p = true) : p.tokHdrLen.toNat ≤ p.poolEsz.toNat := by
  simp only [validParams, Bool.and_eq_true, decide_eq_true_eq] at h
  obtain ⟨⟨⟨⟨⟨⟨⟨-, header⟩, -⟩, -⟩, -⟩, -⟩, -⟩, -⟩ := h
  exact header

/-- `T.fill_header` with no device step in between (R293). -/
theorem State.fillHeader_quiet (quiet : t.quiet) : (t.fillHeader i).2 = { t with
    mem := t.mem.storeBytes (t.physOf i) ((t.env.headers.headD []).take t.cfg.tokHdrLen.toNat)
    env := { t.env with headers := t.env.headers.tail } } := by
  rw [State.fillHeader, State.envTurn_quiet quiet]

theorem Headed.prefill (h : Headed s k t) (valid : validParams s.cfg = true) (room : tokenPoolBytes s.cfg ≤ 2 ^ 64)
    (filled : TokenFilled s n m k t) (lease : t.lease = some i) (empty : slotAt s.token.txBuffers k = none) :
    Headed s (k + 1) (prefillTx t k) := by
  obtain ⟨-, inPool, free⟩ := State.lease_some lease
  rw [filled.entries] at inPool
  have unlisted : i ∉ t.token.freeTx := fun hm => by
    rw [filled.headed i hm] at free
    cases free
  have short := validParams_header valid
  have bytes : ((t.env.headers.headD []).take s.cfg.tokHdrLen.toNat).length ≤ s.cfg.tokHdrLen.toNat := List.length_take_le _ _
  have header : t.env.headers.headD [] = s.env.headers.getD k [] := by
    rw [h.headers, List.headD_eq_head?_getD, List.head?_drop, List.getD_eq_getElem?_getD]
  have apart {e b : Nat} (he : e < 2 * QS s.cfg) (other : e ≠ i) (hb : b < s.cfg.poolEsz.toNat) :=
    Memory.bytesKept_storeBytes t.mem (phys s.cfg s.cfg.poolEsz i) ((t.env.headers.headD []).take s.cfg.tokHdrLen.toNat) _
      (not_inBytes_other_entry room inPool he other hb (bytes.trans short))
  rw [filled.prefillTx_eq lease empty, State.fillHeader_quiet h.quiet, filled.physOf, filled.cfg]
  refine ⟨h.quiet, h.nic, ?headers, h.kept.trans (Memory.bytesKept_storeBytes _ _ _ |>.mono fun x inside => ?kept),
    fun j e listed b hb => ?header, fun e he absent b hb => ?fresh⟩
  case headers =>
    exact (congrArg List.tail h.headers).trans (by rw [List.tail_drop])
  case kept =>
    have last := Nat.mul_le_mul_right s.cfg.poolEsz.toNat (Nat.succ_le_of_lt inPool)
    rw [Nat.succ_mul] at last
    exact inside.of_offset (N := tokenPoolBytes s.cfg) (by rw [tokenPoolBytes]; omega)
  case header =>
    rcases getElem?_concat_eq_some listed with earlier | ⟨rfl, rfl⟩
    · have onList := filled.headed e (List.mem_of_getElem? earlier)
      have inPool' : e < 2 * QS s.cfg := filled.entries ▸ State.lt_of_tag_eq (congrArg Entry.tag onList) nofun
      have other : e ≠ i := fun same => unlisted (same ▸ List.mem_of_getElem? earlier)
      exact (apart inPool' other hb).trans (h.header j e earlier b hb)
    · have old := h.fresh e inPool unlisted b hb
      have run := Memory.get_storeBytes t.mem (phys s.cfg s.cfg.poolEsz e) (k := b) (bytes.trans (by omega)) (by omega)
      rw [listedOr_take, old] at run
      rw [filled.listed, ← header]
      exact run
  case fresh =>
    have away : e ∉ t.token.freeTx ++ [i] := absent
    rw [List.mem_append, List.mem_singleton, not_or] at away
    exact (apart he away.2 hb).trans (h.fresh e he away.1 b hb)

/-! ## The whole free-list (R231, R239) -/

theorem prefillTx_rxCount (h : TokenFilled s n m k t) (lease : t.lease = some i) (empty : slotAt s.token.txBuffers k = none) :
    (prefillTx t k).transport.rxCount = t.transport.rxCount := by
  rw [h.prefillTx_eq lease empty]
  exact t.envTurn_counters.1

/-- With `PICK` = least index the slots hold the entries in rising order (R231). -/
theorem TokenFilled.rx_order (h : TokenFilled s n m k t) (whole : s.token.rxBuffers.length = n) (pick : s.cfg.pick = .least) :
    t.token.rxBuffers = (List.range n).map some := by
  have length := h.slots.trans whole
  refine List.ext_getElem (by simpa using length) fun j hj _ => ?_
  obtain ⟨i, held, -, order⟩ := h.filled j (length ▸ hj)
  rw [slotAt, List.getD_eq_getElem _ _ hj, order pick] at held
  rw [held, List.getElem_map, List.getElem_range]

/-- The loop over the free-list, from the end of the submissions on. -/
theorem TokenFilled.prefills (h : TokenFilled s (QS s.cfg) (QS s.cfg) 0 t) (empty : ∀ k, slotAt s.token.txBuffers k = none)
    (headed : s.quiet → Headed s 0 t) (valid : validParams s.cfg = true) (room : tokenPoolBytes s.cfg ≤ 2 ^ 64) :
    ∃ u, (List.range (QS s.cfg)).foldl prefillTx t = u ∧ TokenFilled s (QS s.cfg) (QS s.cfg) (QS s.cfg) u ∧
      u.transport.rxCount = t.transport.rxCount ∧ (s.quiet → Headed s (QS s.cfg) u) := by
  refine ⟨_, rfl, foldl_range_induct (n := QS s.cfg) (f := prefillTx) (s := t)
    (P := fun k u => TokenFilled s (QS s.cfg) (QS s.cfg) k u ∧ u.transport.rxCount = t.transport.rxCount ∧ (s.quiet → Headed s k u))
    ⟨h, rfl, headed⟩ fun k hk u ⟨filled, count, headed⟩ => ?_⟩
  obtain ⟨i, lease⟩ := filled.lease (by omega)
  exact ⟨filled.prefill (by omega) lease (empty k), (prefillTx_rxCount filled lease (empty k)).trans count,
    fun quiet => (headed quiet).prefill valid room filled lease (empty k)⟩

end

/-- A transport that holds nothing agrees with arrays that hold nothing. -/
theorem State.tokensOk_of_blank {s : State} (blank : s.token.blank) (reset : s.transport = {}) : s.tokensOk := by
  obtain ⟨-, rx, tx⟩ := blank
  have empty : ∀ l : List (Option Nat), (∀ o ∈ l, o = none) → Agree l [] := fun l none =>
    ⟨fun t i => by simp [(forall_mem_none_iff l).mp none t], List.nodup_nil⟩
  rw [State.tokensOk_iff, reset]
  exact fun _ => ⟨empty _ rx, empty _ tx⟩

/-- Settles O32: the transport counts the submissions as the block does, and the stock lasts for both loops. -/
theorem trInitFillsRing : Obligations.TrInitFillsRing := by
  intro s inv hs family closed absent nonzero answer reset contract op hop
  have answer' : (s.askBacking (tokenPoolBytes s.cfg)).1 = true := answer
  have blank : s.token.blank := (inv.live hs).tokenIdle (Or.inr closed)
  have ⟨_, _, txBlank⟩ := blank
  obtain ⟨-, -, -, -, rxLength, txLength, -⟩ := inv.sizes
  obtain ⟨room, -⟩ := (poolRoom_iff _ _).mp (State.askBacking_room answer')
  obtain ⟨u, submitted, filled, counted, submits⟩ := (TokenFilled.start s).submits (d := QS s.cfg)
    (by rw [State.trStart_transport, reset]; exact .reset) (by omega) rxLength
    (by rw [State.trStart_begins]; exact fun a ha => contract a (List.mem_of_mem_take ha)) []
  rw [List.append_nil, ← List.range_eq_range', submitRx] at submitted
  rw [Nat.zero_add] at filled counted
  obtain ⟨v, prefilled, filled', count, headed⟩ := filled.prefills ((forall_mem_none_iff _).mp txBlank) (fun quiet => by
    obtain ⟨quiet', mem, nic⟩ := submits.quiet (by rw [State.quiet, State.trStart_sched]; exact quiet)
    exact .start answer' quiet' (nic.trans s.trStart_nic) (submits.headers.trans s.trStart_headers) mem
      (List.eq_nil_of_length_eq_zero filled.listed)) inv.valid (by omega)
  have run : trInitBody s = v.opened.ok := by
    rw [trInitBody_granted nonzero answer', submitted, if_neg (by rw [filled.halted, hs]; nofun), prefilled]
    rfl
  have run' := (exec_trInit hs family closed absent hop).trans (congrArg _ run)
  have tokens : v.opened.ok.tokensOk :=
    (exec_run hs (by rintro rfl; revert hop; decide) _ run').tokensOk hs inv (State.tokensOk_of_blank blank reset)
  obtain ⟨⟨agree, -⟩, -⟩ := (State.tokensOk_iff _).mp tokens (filled'.halted.trans hs)
  refine ⟨_, run', by rw [State.ok, filled'.same]; rfl, filled'.present, filled'.count_eq, filled'.esz, count.trans counted.count,
    filled'.hardware, filled'.driver, ?stock, filled'.slots.trans rxLength, ?txBuffers, filled'.listed, fun j hj => ?filled,
    filled'.headed, fun pick => ⟨filled'.rx_order rxLength pick, filled'.order pick⟩, fun quiet => ?memory⟩
  case stock =>
    have := filled'.stock
    exact (by omega : v.pool.count .free = 0)
  case txBuffers =>
    exact filled'.txBuffers.trans (List.eq_replicate_iff.mpr ⟨txLength, txBlank⟩)
  case filled =>
    obtain ⟨i, held, record, -⟩ := filled'.filled j hj
    exact ⟨i, held, (agree j i).mp held, record⟩
  case memory =>
    obtain ⟨-, nic, -, kept, header, fresh⟩ := headed quiet
    have physOf (e : Nat) : v.opened.ok.physOf e = phys s.cfg s.cfg.poolEsz e := filled'.physOf e
    simp only [physOf]
    refine ⟨nic, kept, header, fun j i held b hb => ?_⟩
    obtain ⟨i', held', record, -⟩ := filled'.filled j (rxLength ▸ filled'.slots ▸ lt_length_of_slotAt held)
    obtain rfl : i = i' := Option.some.inj (held.symm.trans held')
    have inPool : i < 2 * QS s.cfg := filled'.entries ▸ State.lt_of_tag_eq (congrArg Entry.tag record) nofun
    refine fresh i inPool (fun listed => ?_) b hb
    have := filled'.headed i listed
    rw [record] at this
    cases this

end Sys2Proof.Machine
end

section
/-! Which operations do not end with UNSUPP: it is the answer of the family check alone (R306), which lets its own family through, so a ring
driver's operation where the family is its own never gives it. -/

namespace Sys2Proof.Machine

/-! ## Ends other than UNSUPP (R306) -/

/-- A state in which the last operation did not end with UNSUPP. -/
def State.supported (t : State) : Prop := t.st ≠ Kind.unsupp.code

theorem Kind.code_ne_unsupp {k : Kind} (h : k ≠ .unsupp) : k.code ≠ Kind.unsupp.code := by
  cases k with
  | unsupp => exact absurd rfl h
  | ok | again | nomem | inval | badState => decide

theorem State.finish_supported (s : State) {k : Kind} (h : k ≠ .unsupp) : (s.finish k).supported := Kind.code_ne_unsupp h

theorem State.ok1_supported (s : State) (v : Word) : (s.ok1 v).supported := s.finish_supported (k := .ok) nofun
theorem State.ok3_supported (s : State) (a b c : Word) : (s.ok3 a b c).supported := s.finish_supported (k := .ok) nofun
theorem State.raise_supported (s : State) (c : Cause) : (s.raise c).supported := s.finish_supported (k := .badState) nofun

/-- A preamble that, where it ends the operation, does not end it with UNSUPP. -/
def Admits (c : Option State) : Prop := ∀ t, c = some t → t.supported

theorem Admits.orElse {a b : Option State} (ha : Admits a) (hb : Admits b) : Admits (a <|> b) := by
  cases a with
  | none => simpa using hb
  | some u => exact ha

theorem admits_ite {p : Prop} [Decidable p] {t : State} (h : t.supported) : Admits (if p then some t else none) := by
  intro u hu
  split at hu <;> cases hu
  exact h

theorem Admits.getD {c : Option State} {t : State} (admits : Admits c) (body : t.supported) : (c.getD t).supported := by
  cases c with
  | none => exact body
  | some u => exact admits u rfl

theorem admits_haltCheck (s : State) : Admits (haltCheck s) := admits_ite (s.finish_supported nofun)

theorem admits_queueCheck (q : Nat) (s : State) : Admits (queueCheck q s) := admits_ite (s.finish_supported nofun)

theorem admits_initedCheck (s : State) : Admits (initedCheck s) := by
  intro t ht
  unfold initedCheck at ht
  split at ht <;> cases ht
  exact s.raise_supported _

/-- The family check, the only source of UNSUPP, passes its own family. -/
theorem admits_familyCheck {f : Family} {s : State} (family : s.cfg.family = f) : Admits (familyCheck f s) := by
  rw [familyCheck, if_pos family]
  intro t ht
  cases ht

theorem admits_crCheck {s : State} (family : s.cfg.family = .classic) : Admits (crCheck s) :=
  (admits_haltCheck s).orElse ((admits_familyCheck family).orElse (admits_initedCheck s))

theorem admits_crQueueCheck (q : Nat) {s : State} (family : s.cfg.family = .classic) : Admits (crQueueCheck q s) :=
  (admits_crCheck family).orElse (admits_queueCheck q s)

theorem admits_trCheck {s : State} (family : s.cfg.family = .token) : Admits (trCheck s) :=
  (admits_haltCheck s).orElse ((admits_familyCheck family).orElse (admits_initedCheck s))

theorem admits_initCheck {f : Family} {s : State} (family : s.cfg.family = f) : Admits (initCheck f s) :=
  (admits_haltCheck s).orElse ((admits_familyCheck family).orElse
    ((admits_ite (s.raise_supported _)).orElse (admits_ite (s.raise_supported _))))

/-- An outcome whose next state, where there is one, is not an answer UNSUPP. -/
def Supports (r : Result) : Prop := ∀ t, r = .next t → t.supported

theorem supports_next {t : State} (h : t.supported) : Supports (.next t) := by
  rintro _ ⟨⟩
  exact h

theorem supports_fault (r : Fault) : Supports (.fault r) := by
  intro t ht
  cases ht

/-! ## Behind the preamble, classic family (R201 to R210) -/

theorem leaseAndEmit_supported (s : State) : (leaseAndEmit s).supported := by
  unfold leaseAndEmit
  split
  · exact s.finish_supported nofun
  · exact State.ok3_supported _ _ _ _

theorem reclaimAndRelease_supported (s : State) : (reclaimAndRelease s).supported := by
  unfold reclaimAndRelease
  split
  · exact s.raise_supported _
  · exact State.finish_supported _ nofun

theorem crInitBody_supported (s : State) : (crInitBody s).supported := by
  unfold crInitBody
  split
  · exact s.finish_supported nofun
  dsimp only
  split <;> exact State.finish_supported _ nofun

theorem supports_popAndEmit (q : Nat) (s : State) : Supports (popAndEmit q s) := by
  unfold popAndEmit
  split
  · exact supports_fault _
  · exact supports_next (State.ok3_supported _ _ _ _)

theorem supports_crRxBody (q : Nat) (s : State) : Supports (crRxBody q s) := by
  unfold crRxBody
  split
  · exact supports_popAndEmit q s
  dsimp only
  split
  · exact supports_next (State.finish_supported _ nofun)
  split
  · exact supports_fault _
  · exact supports_next (State.raise_supported _ _)
  · split
    · exact supports_next (State.raise_supported _ _)
    · exact supports_popAndEmit _ _

theorem crTxOwn_supported (q : Nat) (s : State) : (crTxOwn q s).supported := by
  unfold crTxOwn
  split
  · exact s.raise_supported _
  unfold crTxBody
  dsimp only
  split
  · exact s.finish_supported nofun
  · exact State.finish_supported _ nofun

/-! ## Behind the preamble, token family (R231 to R238) -/

theorem State.poolCreate_halted (s : State) (count size : Nat) : (s.poolCreate count size).2.halted = s.halted := by
  rcases s.poolCreate_cases count size with ⟨e, -⟩ | ⟨-, -, -, ⟨-, e⟩ | ⟨-, e⟩⟩
  · rw [e]
  · rw [e, (s.askBacking_envChange _).halted]
  · rw [e]
    exact (s.askBacking_envChange _).halted

/-- The submissions of `TR.INIT` halt the block with a report of the halt. -/
theorem submitRx_supported {ts : List Nat} {s : State} (hs : s.halted = false) (halts : (submitRx ts s).halted = true) :
    (submitRx ts s).supported := by
  induction ts generalizing s with
  | nil => exact absurd (hs.symm.trans halts) nofun
  | cons tok ts ih =>
    cases lease : s.lease with
    | none =>
      rw [submitRx, lease] at halts
      exact absurd (hs.symm.trans halts) nofun
    | some i =>
      obtain ⟨u, around, e | ⟨tr, e⟩⟩ := submitRx_cons (tok := tok) (ts := ts) lease
      · rw [e] at halts ⊢
        exact ih (around.halted.trans hs) halts
      · rw [e]
        exact State.raise_supported _ _

theorem trInitBody_supported {s : State} (hs : s.halted = false) : (trInitBody s).supported := by
  unfold trInitBody
  dsimp only
  split
  · exact State.finish_supported _ nofun
  split
  next halts => exact submitRx_supported ((s.poolCreate_halted _ _).trans hs) halts
  · exact State.finish_supported _ nofun

theorem supports_trRxBody (s : State) : Supports (trRxBody s) := by
  unfold trRxBody
  dsimp only
  split
  · exact supports_next (State.finish_supported _ nofun)
  split
  · exact supports_next (State.raise_supported _ _)
  split
  · exact supports_next (State.raise_supported _ _)
  split
  · exact supports_fault _
  · exact supports_next (State.ok3_supported _ _ _ _)

theorem trRxrecycleBody_supported (s : State) : (trRxrecycleBody s).supported := by
  unfold trRxrecycleBody
  split
  · exact s.raise_supported _
  dsimp only
  split
  · exact State.raise_supported _ _
  split
  · exact State.raise_supported _ _
  split
  · exact State.raise_supported _ _
  · exact State.finish_supported _ nofun

theorem trTxBody_supported (s : State) : (trTxBody s).supported := by
  unfold trTxBody
  split
  · exact s.raise_supported _
  dsimp only
  split
  · exact State.finish_supported _ nofun
  split
  · exact State.raise_supported _ _
  split
  · exact State.raise_supported _ _
  split
  · exact State.raise_supported _ _
  · exact State.finish_supported _ nofun

theorem supports_txDrain (fuel : Nat) (s : State) : Supports (txDrain fuel s) := by
  induction fuel generalizing s with
  | zero => exact supports_next (s.finish_supported nofun)
  | succ fuel ih =>
    unfold txDrain
    dsimp only
    split
    · exact supports_next (State.finish_supported _ nofun)
    split
    · exact supports_next (State.raise_supported _ _)
    split
    · exact supports_next (State.raise_supported _ _)
    split
    · exact supports_fault _
    · exact ih _

theorem trTxallocBody_supported (s : State) : (trTxallocBody s).supported := by
  unfold trTxallocBody
  split
  · exact s.finish_supported nofun
  split
  · exact s.finish_supported nofun
  · exact State.ok3_supported _ _ _ _

/-! ## The operations of a ring driver where the family is its own -/

section
variable {s : State} (family : s.cfg.family = .classic)
include family

theorem supports_execCrInit : Supports (execCrInit s) :=
  supports_next ((admits_initCheck family).getD (crInitBody_supported s))

theorem supports_execCrCanrx (q : Nat) : Supports (execCrCanrx q s) := by
  refine supports_next ((admits_crQueueCheck q family).getD ?_)
  split <;> exact State.ok1_supported _ _

theorem supports_execCrRx (q : Nat) : Supports (execCrRx q s) := by
  unfold execCrRx
  split
  next t stopped => exact supports_next (admits_crQueueCheck q family t stopped)
  · exact supports_crRxBody q s

theorem supports_execCrRxrecycle : Supports (execCrRxrecycle s) :=
  supports_next ((admits_crCheck family).getD (reclaimAndRelease_supported s))

theorem supports_execCrCantx (q : Nat) : Supports (execCrCantx q s) :=
  supports_next ((admits_crQueueCheck q family).getD (s.ok1_supported _))

theorem supports_execCrTx (q : Nat) : Supports (execCrTx q s) :=
  supports_next ((admits_crQueueCheck q family).getD (crTxOwn_supported q s))

theorem supports_execCrTxrecycle (q : Nat) : Supports (execCrTxrecycle q s) :=
  supports_next ((admits_crQueueCheck q family).getD (State.finish_supported _ nofun))

theorem supports_execCrTxalloc : Supports (execCrTxalloc s) := by
  refine supports_next ((admits_crCheck family).getD ?_)
  split
  · exact s.finish_supported nofun
  · exact leaseAndEmit_supported s

end

section
variable {s : State} (family : s.cfg.family = .token)
include family

theorem supports_execTrInit (hs : s.halted = false) : Supports (execTrInit s) :=
  supports_next ((admits_initCheck family).getD (trInitBody_supported hs))

theorem supports_execTrCanrx : Supports (execTrCanrx s) :=
  supports_next ((admits_trCheck family).getD (State.ok1_supported _ _))

theorem supports_execTrRx : Supports (execTrRx s) := by
  unfold execTrRx
  split
  next t stopped => exact supports_next (admits_trCheck family t stopped)
  · exact supports_trRxBody s

theorem supports_execTrRxrecycle : Supports (execTrRxrecycle s) :=
  supports_next ((admits_trCheck family).getD (trRxrecycleBody_supported s))

theorem supports_execTrCantx : Supports (execTrCantx s) :=
  supports_next ((admits_trCheck family).getD (State.ok1_supported _ _))

theorem supports_execTrTx : Supports (execTrTx s) :=
  supports_next ((admits_trCheck family).getD (trTxBody_supported s))

theorem supports_execTrTxrecycle : Supports (execTrTxrecycle s) := by
  unfold execTrTxrecycle
  split
  next t stopped => exact supports_next (admits_trCheck family t stopped)
  · exact supports_txDrain _ s

theorem supports_execTrTxalloc : Supports (execTrTxalloc s) :=
  supports_next ((admits_trCheck family).getD (trTxallocBody_supported s))

end

end Sys2Proof.Machine
end

section
/-! The Uniform Driver Contract (spec/45_contract.md): each operation is the operation of its family, gated by the queue number where the
family is token (R260); and what `DEV.INFO` gives (R269). -/

namespace Sys2Proof.Machine

/-! ## Dispatch (R260) -/

theorem supports_byFamily {classic token : State → Result} {s : State} (hs : s.halted = false)
    (hc : s.cfg.family = .classic → Supports (classic s)) (ht : s.cfg.family = .token → Supports (token s)) :
    Supports (byFamily classic token s) := by
  cases family : s.cfg.family with
  | classic => rw [byFamily_classic hs family]; exact hc family
  | token => rw [byFamily_token hs family]; exact ht family

theorem supports_byFamilyQueued {classic token : State → Result} {s : State} (q : Nat) (hs : s.halted = false)
    (hc : s.cfg.family = .classic → Supports (classic s)) (ht : s.cfg.family = .token → Supports (token s)) :
    Supports (byFamilyQueued q classic token s) := by
  refine supports_byFamily hs hc fun family => ?_
  split
  next t stopped => exact supports_next ((admits_initedCheck s).orElse (admits_queueCheck q s) t stopped)
  · exact ht family

/-- An operation that answers what the preamble of the token ring driver answers where that one ends it (R230). -/
def TokenGated (op : State → Result) : Prop := ∀ s t, trCheck s = some t → op s = .next t

theorem tokenGated_getD (own : State → State) : TokenGated fun s => .next ((trCheck s).getD (own s)) := by
  intro s t stopped
  simp only [stopped, Option.getD_some]

section
variable {q : Nat} {s : State} (hs : s.halted = false) (family : s.cfg.family = .token) {classic token : State → Result}
include hs family

theorem trCheck_closed (closed : s.inited = false) : trCheck s = some (s.raise .notInited) := by
  rw [trCheck_eq, if_neg (by simp [hs]), if_pos family, if_neg (by simp [closed])]

/-- For a queue below `QN` the contract is the token ring driver: before `INIT` both report NOT_INITED. -/
theorem byFamilyQueued_token_inRange (gated : TokenGated token) (inRange : q < QN s.cfg) :
    byFamilyQueued q classic token s = token s := by
  rw [byFamilyQueued, byFamily_token hs family]
  cases open' : s.inited with
  | true => rw [(tokenGates_none q s).mpr ⟨open', inRange⟩]
  | false =>
    have gates : (initedCheck s <|> queueCheck q s) = some (s.raise .notInited) := by simp [initedCheck, open']
    rw [gates, gated s _ (trCheck_closed hs family open')]

/-- For any other queue an initialised block answers INVAL (R308 items 5 and 6). -/
theorem byFamilyQueued_token_outOfRange (open' : s.inited = true) (outside : QN s.cfg ≤ q) :
    byFamilyQueued q classic token s = .next (s.finish .inval) := by
  have gates : (initedCheck s <|> queueCheck q s) = some (s.finish .inval) := by simp [initedCheck, queueCheck, open', outside]
  rw [byFamilyQueued, byFamily_token hs family, gates]

end

/-- Settles O41: the dispatch is on the family alone; the operations of the family at hand pass the family check. -/
theorem devDispatchesOnFamily : Obligations.DevDispatchesOnFamily := by
  intro q s hs
  refine ⟨fun family => ?classic, fun family => ⟨?init, ?rxrecycle, ?txalloc, fun inRange => ?queued, fun outside open' => ?refused⟩,
    ?kinds⟩
  case classic =>
    have same (classic token : State → Result) : byFamily classic token s = classic s := byFamily_classic hs family classic token
    have queued (classic token : State → Result) : byFamilyQueued q classic token s = classic s := same _ _
    exact ⟨same _ _, queued _ _, queued _ _, same _ _, queued _ _, queued _ _, queued _ _, same _ _⟩
  case init => exact byFamily_token hs family _ _
  case rxrecycle => exact byFamily_token hs family _ _
  case txalloc => exact byFamily_token hs family _ _
  case queued =>
    have gatedRx : TokenGated execTrRx := fun s t stopped => by rw [execTrRx, stopped]
    have gatedTxrecycle : TokenGated execTrTxrecycle := fun s t stopped => by rw [execTrTxrecycle, stopped]
    have same {classic token : State → Result} (gated : TokenGated token) : byFamilyQueued q classic token s = token s :=
      byFamilyQueued_token_inRange hs family gated inRange
    exact ⟨same (tokenGated_getD _), same gatedRx, same (tokenGated_getD _), same (tokenGated_getD _), same gatedTxrecycle⟩
  case refused =>
    have inval (classic token : State → Result) : byFamilyQueued q classic token s = .next (s.finish .inval) :=
      byFamilyQueued_token_outOfRange hs family open' outside
    intro op hop
    simp only [List.mem_cons, List.not_mem_nil, or_false] at hop
    rcases hop with rfl | rfl | rfl | rfl | rfl <;> exact inval _ _
  case kinds =>
    intro op hop
    simp only [List.mem_cons, List.not_mem_nil, or_false] at hop
    rcases hop with rfl | rfl | rfl | rfl | rfl | rfl | rfl | rfl
    · exact supports_byFamily hs supports_execCrInit (supports_execTrInit · hs)
    · exact supports_byFamilyQueued q hs (supports_execCrCanrx · q) supports_execTrCanrx
    · exact supports_byFamilyQueued q hs (supports_execCrRx · q) supports_execTrRx
    · exact supports_byFamily hs supports_execCrRxrecycle supports_execTrRxrecycle
    · exact supports_byFamilyQueued q hs (supports_execCrCantx · q) supports_execTrCantx
    · exact supports_byFamilyQueued q hs (supports_execCrTx · q) supports_execTrTx
    · exact supports_byFamilyQueued q hs (supports_execCrTxrecycle · q) supports_execTrTxrecycle
    · exact supports_byFamily hs supports_execCrTxalloc supports_execTrTxalloc

/-! ## `DEV.INFO` (R269) -/

/-- A byte put below a bit string, as a shift and an or. -/
theorem setWidth_append_byte {n : Nat} (x : BitVec n) (b : Byte) :
    (x ++ b).setWidth 64 = b.setWidth 64 ||| (x.setWidth 64 <<< 8) := by
  apply BitVec.eq_of_getLsbD_eq
  intro i inWord
  rw [BitVec.getLsbD_setWidth, BitVec.getLsbD_append, BitVec.getLsbD_or, BitVec.getLsbD_shiftLeft, BitVec.getLsbD_setWidth,
    BitVec.getLsbD_setWidth]
  by_cases low : i < 8
  · simp [inWord, low]
  · have above : b.getLsbD i = false := BitVec.getLsbD_of_ge b i (by omega)
    simp [inWord, low, above, show i - 8 < 64 by omega]

/-- The MAC address as shifts of its octets, the first one lowest. -/
theorem macWord_eq (m : Mac) : macWord m = m.b0.setWidth 64 ||| (m.b1.setWidth 64 <<< 8) ||| (m.b2.setWidth 64 <<< 16) |||
    (m.b3.setWidth 64 <<< 24) ||| (m.b4.setWidth 64 <<< 32) ||| (m.b5.setWidth 64 <<< 40) := by
  simp only [macWord, setWidth_append_byte, BitVec.shiftLeft_or_distrib, ← BitVec.shiftLeft_add, BitVec.or_assoc]

theorem infoValue_size {p : Params} {sel : Nat} (h : sel = 2 ∨ sel = 3) : infoValue p sel = some (BitVec.ofNat 64 (QS p)) := by
  have size : p.qs.setWidth 64 = BitVec.ofNat 64 (QS p) := (BitVec.ofNat_toNat 64 p.qs).symm
  rcases h with rfl | rfl <;> rw [← size] <;> rfl

theorem infoValue_none {p : Params} {sel : Nat} (h : 5 ≤ sel) : infoValue p sel = none := by
  match sel, h with
  | _ + 5, _ => rfl

/-- A running block answers `DEV.INFO` by the selector alone. -/
theorem exec_devInfo_some {s : State} (hs : s.halted = false) {v : Word} (h : infoValue s.cfg s.a0.toNat = some v) :
    exec .devInfo s = .next (s.ok1 v) := by
  simp only [exec, execDevInfo, haltCheck_running hs, Option.getD_none, h]

theorem exec_devInfo_none {s : State} (hs : s.halted = false) (h : infoValue s.cfg s.a0.toNat = none) :
    exec .devInfo s = .next (s.finish .inval) := by
  simp only [exec, execDevInfo, haltCheck_running hs, Option.getD_none, h]

/-- Settles O42: one case per selector. -/
theorem devInfoValues : Obligations.DevInfoValues := by
  intro s
  refine ⟨fun halted => exec_halted halted nofun, fun hs => ⟨fun sel => ?type, fun sel => ?mac, fun sel => ?size, fun sel => ?name,
    fun other => exec_devInfo_none hs (infoValue_none other)⟩⟩
  case type => exact exec_devInfo_some hs (by rw [sel]; rfl)
  case mac => exact exec_devInfo_some hs (by rw [sel, ← macWord_eq]; rfl)
  case size => exact exec_devInfo_some hs (infoValue_size (sel.imp (congrArg BitVec.toNat) (congrArg BitVec.toNat)))
  case name => exact exec_devInfo_some hs (by rw [sel]; rfl)

end Sys2Proof.Machine
end

section
/-! The NIC device (spec/46_device_agents.md R280 to R284): a step that is not enabled changes nothing, and one that is enabled is its
accesses one after the other, each a store whose bytes read back. -/

namespace Sys2Proof.Machine

/-! ## Runs of bytes and words (R70) -/

/-- A run of bytes cut to a length: the listed byte at each address up to the cut, or the byte that was there. -/
theorem Memory.get_storeBytes_take (m : Memory) (a : Addr) (bytes : List Byte) {n k : Nat} (fits : n ≤ 2 ^ 64) (hk : k < n) :
    (m.storeBytes a (bytes.take n)).get (a + BitVec.ofNat 64 k).toNat =
      listedOr bytes k (m.get (a + BitVec.ofNat 64 k).toNat) := by
  have short : (bytes.take n).length ≤ 2 ^ 64 := (List.length_take_le n bytes).trans fits
  rw [Memory.get_storeBytes m a short (hk.trans_le fits), listedOr_take, if_pos hk]

theorem Memory.bytesKept_storeBytes_take (m : Memory) (a : Addr) (bytes : List Byte) (n : Nat) :
    bytesKept m (m.storeBytes a (bytes.take n)) (inBytes a n) :=
  (m.bytesKept_storeBytes a _).mono fun _ h => h.mono (List.length_take_le n bytes)

/-- The first word of a descriptor is written without touching the second. -/
theorem Memory.load_store_first (m : Memory) (d : Addr) (v : Word) : (m.store d 8 v).load (d + 8#64) 8 = m.load (d + 8#64) 8 :=
  (bytesKept_store m d 8 v).load_eq le_rfl fun k hk inside => by
    have offsets : inBytes (d + BitVec.ofNat 64 0) 8 (d + BitVec.ofNat 64 (8 + k)).toNat := by
      simpa [BitVec.ofNat_add, BitVec.add_assoc] using inside
    have := (inBytes_offset_iff (by omega) (by omega)).mp offsets
    omega

/-! ## The words the device writes (R281, R283) -/

/-- A bit string put below another one, as a shift and an or. -/
theorem setWidth_append {n k : Nat} (x : BitVec n) (y : BitVec k) :
    (x ++ y).setWidth 64 = (x.setWidth 64 <<< k) ||| y.setWidth 64 := by
  apply BitVec.eq_of_getLsbD_eq
  intro i inWord
  rw [BitVec.getLsbD_setWidth, BitVec.getLsbD_append, BitVec.getLsbD_or, BitVec.getLsbD_shiftLeft, BitVec.getLsbD_setWidth,
    BitVec.getLsbD_setWidth]
  by_cases low : i < k
  · simp [inWord, low]
  · have beyond : y.getLsbD i = false := BitVec.getLsbD_of_ge y i (by omega)
    simp [inWord, low, beyond, show i - k < 64 by omega]

/-- The second word of a write-back as shifts of its fields (R102). -/
theorem rxWriteback_eq (f : RxFrame) : rxWriteback f =
    (f.vlan.setWidth 64 <<< 48) ||| (f.len.setWidth 64 <<< 32) ||| (f.xerror.setWidth 64 <<< 20) ||| (f.xstat.setWidth 64 <<< 2) |||
      (f.eop.setWidth 64 <<< 1) ||| 1#64 := by
  calc rxWriteback f = (f.vlan ++ f.len ++ f.xerror ++ f.xstat ++ f.eop ++ 1#1).setWidth 64 := (BitVec.setWidth_eq _).symm
    _ = _ := by
      rw [setWidth_append, setWidth_append, setWidth_append, setWidth_append, setWidth_append]
      simp only [BitVec.shiftLeft_or_distrib, ← BitVec.shiftLeft_add]; rfl

/-- The status nibble as the device writes it: three drawn bits over Descriptor-Done. -/
def statusNibble (sta : BitVec 3) : Word := (sta.setWidth 64 <<< 1) ||| 1#64

theorem statusNibble_lt (sta : BitVec 3) : (statusNibble sta).toNat < 2 ^ 4 := by
  revert sta; decide

theorem txDonePacked_eq (p : Word) (sta : BitVec 3) : txDonePacked p sta = (bits p 31 4 <<< 4) ||| statusNibble sta := by
  rw [txDonePacked, setWidth_append, setWidth_append, BitVec.shiftLeft_or_distrib, ← BitVec.shiftLeft_add, BitVec.or_assoc]
  rfl

theorem txDonePacked_lt (p : Word) (sta : BitVec 3) : (txDonePacked p sta).toNat < 2 ^ 32 := by
  rw [txDonePacked, BitVec.toNat_setWidth]
  exact (Nat.mod_le _ _).trans_lt (BitVec.isLt _)

theorem txDonePacked_status (p : Word) (sta : BitVec 3) : txDonePacked p sta &&& 0xF#64 = statusNibble sta := by
  have above : (bits p 31 4 <<< 4) &&& 0xF#64 = 0#64 := by
    rw [show (0xF#64 : Word) = BitVec.ofNat 64 (2 ^ 4 - 1) from rfl]
    apply BitVec.eq_of_getLsbD_eq
    intro i inWord
    rw [BitVec.getLsbD_and, BitVec.getLsbD_shiftLeft, BitVec.getLsbD_ofNat, Nat.testBit_two_pow_sub_one]
    by_cases low : i < 4 <;> simp [low]
  have nibble : statusNibble sta &&& 0xF#64 = statusNibble sta := and_mask_of_lt (n := 4) (by decide) (statusNibble_lt sta)
  rw [txDonePacked_eq, BitVec.and_comm, BitVec.and_or_distrib_left, BitVec.and_comm, above, BitVec.and_comm, nibble, BitVec.zero_or]

theorem txDonePacked_above_status (p : Word) (sta : BitVec 3) : txDonePacked p sta >>> 4 = bits p 31 4 := by
  apply BitVec.eq_of_getLsbD_eq
  intro i inWord
  have beyond : (statusNibble sta).getLsbD (4 + i) = false :=
    Nat.testBit_lt_two_pow ((statusNibble_lt sta).trans_le (Nat.pow_le_pow_right (by decide) (by omega)))
  rw [txDonePacked_eq, BitVec.getLsbD_ushiftRight, BitVec.getLsbD_or, BitVec.getLsbD_shiftLeft, beyond, getLsbD_bits _ _ _ (by omega),
    Nat.add_sub_cancel_left, getLsbD_bits _ _ _ inWord]
  by_cases inField : i < 31 + 1 - 4
  · simp [show 4 + i < 64 by omega]
  · simp [inField]

/-- The packed word has 32 bits: its field 31:4 is all that is above the status nibble. -/
theorem Memory.bits_load_packed (m : Memory) (a : Addr) : bits (m.load a 4) 31 4 = m.load a 4 >>> 4 := by
  apply BitVec.eq_of_getLsbD_eq
  intro i inWord
  rw [getLsbD_bits _ _ _ inWord, BitVec.getLsbD_ushiftRight]
  by_cases inField : i < 31 + 1 - 4
  · simp [inField]
  · rw [Memory.getLsbD_load _ _ _ _ (by decide)]
    simp [inField, show ¬ 4 + i < 8 * 4 by omega]

/-! ## Which slots the device acts on (R281, R283) -/

theorem State.rxArmed_of_hw {s : State} {q j i : Nat} (buffer : slotAt (s.queue q).rxBuf j = some i) (tag : (s.entry i).tag = .hw)
    (waiting : (s.mem.load (rxd s.cfg q j + 8#64) 8).getLsbD 0 = false) : s.rxArmed q j = true := by
  simp only [State.rxArmed, buffer, tag, rxDone, waiting, decide_true, Bool.not_false, Bool.and_self]

theorem State.txPending_of_hw {s : State} {q j i : Nat} (buffer : slotAt (s.queue q).txBuf j = some i) (tag : (s.entry i).tag = .hw)
    (waiting : (s.mem.load (txd s.cfg q j + 12#64) 4).getLsbD 0 = false) : s.txPending q j = true := by
  simp only [State.txPending, buffer, tag, txDone, waiting, decide_true, Bool.not_false, Bool.and_self]

/-! ## Steps that are not enabled -/

theorem nicWrite_idle {s : State} (idle : s.nic.work = none) (k : Nat) : nicWrite k s = s := by
  rw [nicWrite, idle]

section
variable {s : State} {q : Nat}

theorem nicRxBegin_disabled (disabled : s.nic.work ≠ none ∨ s.rxArmed q (s.devRxNext q).toNat = false) (f : RxFrame) :
    nicRxBegin q f s = s :=
  if_neg fun ⟨idle, armed⟩ => disabled.elim (· idle) fun unarmed => Bool.false_ne_true (unarmed.symm.trans armed)

theorem nicRxwb_disabled (disabled : s.nic.work ≠ none ∨ s.rxArmed q (s.devRxNext q).toNat = false) (f : RxFrame) :
    nicRxwb q f s = s := by
  by_cases idle : s.nic.work = none
  · rw [nicRxwb, if_pos idle, nicRxBegin_disabled disabled]
    simp only [nicWrite_idle idle]
  · exact if_neg idle

theorem nicTxBegin_disabled {j : Nat} (disabled : s.nic.work ≠ none ∨ s.txPending q j = false) (sta : BitVec 3) :
    nicTxBegin q j sta s = s :=
  if_neg fun ⟨idle, pending⟩ => disabled.elim (· idle) fun settled => Bool.false_ne_true (settled.symm.trans pending)

theorem nicTxdone_disabled {j : Nat} (disabled : s.nic.work ≠ none ∨ s.txPending q j = false) (sta : BitVec 3) :
    nicTxdone q j sta s = s := by
  by_cases idle : s.nic.work = none
  · rw [nicTxdone, if_pos idle, nicTxBegin_disabled disabled, nicWrite_idle idle]
  · exact if_neg idle

end

/-! ## `NIC.RXWB` on an armed slot, access by access (R281, R79) -/

/-- The descriptor of the next slot of the device. -/
def State.rxTarget (s : State) (q : Nat) : Addr := rxd s.cfg q (s.devRxNext q).toNat

/-- The bytes of a frame that an entry has room for. -/
def State.frameBytes (s : State) (f : RxFrame) : List Byte := f.bytes.take (min f.len.toNat s.pool.esz.toNat)

/-- Memory with the frame at the address that the descriptor holds. -/
def State.frameMem (s : State) (q : Nat) (f : RxFrame) : Memory := s.mem.storeBytes (s.mem.load (s.rxTarget q) 8) (s.frameBytes f)

/-- `s` with the step begun: its reads are made. -/
def State.rxBegun (s : State) (q : Nat) (f : RxFrame) : State :=
  { s with nic := { s.nic with
      work := some (.frame q (s.devRxNext q).toNat (s.mem.load (s.rxTarget q) 8) (s.frameBytes f) f) } }

/-- `s` with the whole frame written; `a` is the address behind it, where no byte follows. -/
def State.frameStored (s : State) (q : Nat) (f : RxFrame) (a : Addr) : State :=
  { s with mem := s.frameMem q f, nic := { s.nic with work := some (.frame q (s.devRxNext q).toNat a [] f) } }

/-- `s` with the frame and the first word written. -/
def State.firstStored (s : State) (q : Nat) (f : RxFrame) : State :=
  { s with
    mem := (s.frameMem q f).store (s.rxTarget q) 8 f.w0
    nic := { s.nic with work := some (.status q (s.devRxNext q).toNat f) } }

/-- `s` with the step ended. -/
def State.writtenBack (s : State) (q : Nat) (f : RxFrame) : State :=
  { s with
    mem := ((s.frameMem q f).store (s.rxTarget q) 8 f.w0).store (s.rxTarget q + 8#64) 8 (rxWriteback f)
    nic := { rxNext := s.nic.rxNext.set q (BitVec.ofNat 16 (((s.devRxNext q).toNat + 1) % QS s.cfg)), work := none } }

theorem nicWrite_frameStored (s : State) (q : Nat) (f : RxFrame) (a : Addr) (k : Nat) :
    nicWrite k (s.frameStored q f a) = s.firstStored q f := rfl

theorem nicWrite_firstStored (s : State) (q : Nat) (f : RxFrame) (k : Nat) : nicWrite k (s.firstStored q f) = s.writtenBack q f := rfl

theorem nicWrite_writtenBack (s : State) (q : Nat) (f : RxFrame) (k : Nat) : nicWrite k (s.writtenBack q f) = s.writtenBack q f :=
  nicWrite_idle rfl k

/-- Without frame bytes the frame is written before its first access. -/
theorem State.rxBegun_of_no_bytes {s : State} {f : RxFrame} (q : Nat) (empty : s.frameBytes f = []) :
    s.rxBegun q f = s.frameStored q f (s.mem.load (s.rxTarget q) 8) := by
  rw [State.frameStored, State.frameMem, State.rxBegun, empty]; rfl

/-- One access writes the frame, however long. -/
theorem nicWrite_rxBegun {s : State} {f : RxFrame} (q : Nat) (nonempty : s.frameBytes f ≠ []) :
    nicWrite f.bytes.length (s.rxBegun q f) =
      s.frameStored q f (s.mem.load (s.rxTarget q) 8 + BitVec.ofNat 64 (f.bytes.length + 1)) := by
  obtain ⟨b, bs, listed⟩ := List.exists_cons_of_ne_nil nonempty
  have short : (b :: bs).length ≤ f.bytes.length := by rw [← listed]; exact List.length_take_le' _ _
  rw [List.length_cons] at short
  have whole : (b :: bs).take (f.bytes.length + 1) = b :: bs := List.take_of_length_le (by rw [List.length_cons]; omega)
  have rest : bs.drop f.bytes.length = [] := List.drop_of_length_le (by omega)
  rw [State.frameStored, State.frameMem, State.rxBegun, listed]
  simp only [nicWrite, whole, rest]

section
variable {s : State} {q : Nat} (idle : s.nic.work = none) (armed : s.rxArmed q (s.devRxNext q).toNat = true) (f : RxFrame)
include idle armed

theorem nicRxBegin_armed : nicRxBegin q f s = s.rxBegun q f := if_pos ⟨idle, armed⟩

/-- The whole step is its accesses; where the frame is empty it is one access shorter. -/
theorem nicRxwb_armed : nicRxwb q f s = s.writtenBack q f := by
  rw [nicRxwb, if_pos idle, nicRxBegin_armed idle armed]
  by_cases empty : s.frameBytes f = []
  · rw [State.rxBegun_of_no_bytes q empty, nicWrite_frameStored, nicWrite_firstStored, nicWrite_writtenBack]
  · rw [nicWrite_rxBegun q empty, nicWrite_frameStored, nicWrite_firstStored]

end

/-! ## What `NIC.RXWB` leaves in memory (R281) -/

section
variable (s : State) (q : Nat) (f : RxFrame)

theorem State.frameMem_get {k : Nat} (hk : k < min f.len.toNat s.pool.esz.toNat) :
    (s.frameMem q f).get (s.mem.load (s.rxTarget q) 8 + BitVec.ofNat 64 k).toNat =
      listedOr f.bytes k (s.mem.get (s.mem.load (s.rxTarget q) 8 + BitVec.ofNat 64 k).toNat) :=
  Memory.get_storeBytes_take _ _ _ (by have := f.len.isLt; omega) hk

theorem State.bytesKept_frameMem :
    bytesKept s.mem (s.frameMem q f) (inBytes (s.mem.load (s.rxTarget q) 8) (min f.len.toNat s.pool.esz.toNat)) :=
  Memory.bytesKept_storeBytes_take _ _ _ _

/-- The two words of the descriptor read back, and where they are not, there is the frame or what was there. -/
theorem State.writtenBack_mem :
    (s.writtenBack q f).mem.load (s.rxTarget q) 8 = f.w0 ∧
    (s.writtenBack q f).mem.load (s.rxTarget q + 8#64) 8 = rxWriteback f ∧
    bytesKept (s.frameMem q f) (s.writtenBack q f).mem (inBytes (s.rxTarget q) 16) :=
  Memory.store_words _ _ _ _

/-- Between the two words the first is new and the second as the frame has left it. -/
theorem State.firstStored_mem :
    (s.firstStored q f).mem.load (s.rxTarget q) 8 = f.w0 ∧
    (s.firstStored q f).mem.load (s.rxTarget q + 8#64) 8 = (s.frameMem q f).load (s.rxTarget q + 8#64) 8 :=
  ⟨Memory.load_store_word _ _ _, Memory.load_store_first _ _ _⟩

end

/-- Settles O51: the accesses of a step on an armed slot lead through named states, of which the last is what the whole step leaves. -/
theorem nicWritesBackArmedSlot : Obligations.NicWritesBackArmedSlot := by
  intro s q f j d n
  refine ⟨fun disabled => ⟨nicRxwb_disabled disabled f, nicRxBegin_disabled disabled f⟩, fun i idle buffer tag waiting => ?_⟩
  have armed : s.rxArmed q j = true := State.rxArmed_of_hw buffer tag waiting
  have whole : envStep s (.nicRxwb q f) = s.writtenBack q f := nicRxwb_armed idle armed f
  have frameKept := s.bytesKept_frameMem q f
  refine ⟨⟨_, whole, rfl, ?_⟩, ?_⟩
  · obtain ⟨first, second, kept⟩ := s.writtenBack_mem q f
    refine ⟨first, second.trans (rxWriteback_eq f), fun k hk outside => (kept _ outside).trans (s.frameMem_get q f hk), ?_⟩
    exact (frameKept.mono fun _ => .inr).trans (kept.mono fun _ => .inl)
  · intro b c e
    have begun : b = s.rxBegun q f := nicRxBegin_armed idle armed f
    obtain ⟨a, framed⟩ : ∃ a, c = s.frameStored q f a := by
      by_cases empty : s.frameBytes f = []
      · exact ⟨_, (if_pos empty).trans (begun.trans (State.rxBegun_of_no_bytes q empty))⟩
      · exact ⟨_, (if_neg empty).trans ((congrArg (nicWrite _) begun).trans (nicWrite_rxBegun q empty))⟩
    have first : e = s.firstStored q f := (congrArg (nicWrite 0) framed).trans (nicWrite_frameStored s q f a 0)
    refine ⟨by rw [begun]; rfl, (congrArg (nicWrite 0) first).trans whole.symm, fun apart => ?_⟩
    obtain ⟨address, status⟩ := frameKept.load_words fun x inDescriptor inFrame => apart x inFrame inDescriptor
    obtain ⟨new, old⟩ := s.firstStored_mem q f
    rw [framed, first]
    exact ⟨address, status, new, old.trans status⟩

/-! ## `NIC.TXDONE` on a pending slot (R283) -/

/-- `s` with the step begun: the packed word is read. -/
def State.txBegun (s : State) (q j : Nat) (sta : BitVec 3) : State :=
  { s with nic := { s.nic with work := some (.packed q j (s.mem.load (txd s.cfg q j + 12#64) 4) sta) } }

theorem nicTxBegin_pending {s : State} {q j : Nat} (idle : s.nic.work = none) (pending : s.txPending q j = true) (sta : BitVec 3) :
    nicTxBegin q j sta s = s.txBegun q j sta := if_pos ⟨idle, pending⟩

/-- The write of the step leaves a device that was between two steps as it was, whatever memory has become since the read. -/
theorem nicWrite_txBegun {s : State} (idle : s.nic.work = none) (q j : Nat) (sta : BitVec 3) (m : Memory) (k : Nat) :
    nicWrite k { s.txBegun q j sta with mem := m } = { s with
      mem := m.store (txd s.cfg q j + 12#64) 4 (txDonePacked (s.mem.load (txd s.cfg q j + 12#64) 4) sta) } := by
  have rested : { s.nic with work := none } = s.nic := by rw [← idle]
  calc nicWrite k { s.txBegun q j sta with mem := m }
      = { s with
          mem := m.store (txd s.cfg q j + 12#64) 4 (txDonePacked (s.mem.load (txd s.cfg q j + 12#64) 4) sta)
          nic := { s.nic with work := none } } := rfl
    _ = _ := by rw [rested]

/-- Settles O52: the read leaves everything but the step in progress, and the write is one store of the packed word that was read. -/
theorem nicReportsSentSlot : Obligations.NicReportsSentSlot := by
  intro s q j sta a
  refine ⟨fun disabled => ⟨nicTxdone_disabled disabled sta, nicTxBegin_disabled disabled sta⟩, fun i idle buffer tag waiting => ?_⟩
  intro b
  have begun : b = s.txBegun q j sta := nicTxBegin_pending idle (State.txPending_of_hw buffer tag waiting) sta
  refine ⟨by rw [begun]; rfl, if_pos idle, fun m k => ⟨_, rfl, ?_⟩⟩
  have write : envStep { b with mem := m } (.nicWrite k) = { s with mem := m.store a 4 (txDonePacked (s.mem.load a 4) sta) } := by
    rw [begun]; exact nicWrite_txBegun idle q j sta m k
  have stored := m.load_store_of_lt a (n := 4) (by decide) (txDonePacked_lt (s.mem.load a 4) sta)
  rw [write]
  refine ⟨rfl, ?_, ?_, bytesKept_store m a 4 _⟩
  · rw [stored]; exact txDonePacked_status _ _
  · rw [stored, txDonePacked_above_status, Memory.bits_load_packed]

end Sys2Proof.Machine
end

section
/-! The other agents between operations (spec/46_device_agents.md): the device side of the transport (R295), and the host with the bytes
it holds (R285, R86). -/

namespace Sys2Proof.Machine

/-! ## The device side of the transport (R295) -/

section
variable {s : State} {k : Nat}

theorem vqDevrx_none (h : s.transport.rxInflight.length ≤ k) (len : Word) (bytes : List Byte) : vqDevrx k len bytes s = s := by
  simp only [vqDevrx, List.getElem?_eq_none h]

theorem vqDevtx_none (h : s.transport.txInflight.length ≤ k) : vqDevtx k s = s := by
  simp only [vqDevtx, List.getElem?_eq_none h]

theorem vqDevrx_fits {x : RxFlight} (h : s.transport.rxInflight[k]? = some x) {len : Word}
    (fits : s.cfg.tokHdrLen.toNat + len.toNat ≤ s.pool.esz.toNat) (bytes : List Byte) :
    vqDevrx k len bytes s = { s with
      mem := s.mem.storeBytes (s.physOf x.entry) (bytes.take (s.cfg.tokHdrLen.toNat + len.toNat))
      transport := { s.transport with
        rxInflight := s.transport.rxInflight.eraseIdx k
        rxUsed := s.transport.rxUsed ++ [⟨x.tok, x.entry, s.cfg.tokHdrLen.setWidth 64, len⟩] } } := by
  simp only [vqDevrx, h, if_pos fits]

theorem vqDevtx_some {x : TxFlight} (h : s.transport.txInflight[k]? = some x) : vqDevtx k s = { s with
    transport := { s.transport with txInflight := s.transport.txInflight.eraseIdx k, txUsed := s.transport.txUsed ++ [x] } } := by
  simp only [vqDevtx, h]

end

/-- Settles O54: the token at the index is there or not, and its bytes are one run into its entry. -/
theorem transportDeviceCompletes : Obligations.TransportDeviceCompletes := by
  intro s k len bytes
  refine ⟨fun h => vqDevrx_none h len bytes, vqDevtx_none, fun x h fits => ?_, fun x => vqDevtx_some⟩
  have run : s.cfg.tokHdrLen.toNat + len.toNat ≤ 2 ^ 64 := by have := s.pool.esz.isLt; omega
  exact ⟨_, vqDevrx_fits h fits bytes, rfl, fun b hb => Memory.get_storeBytes_take _ _ _ run hb,
    Memory.bytesKept_storeBytes_take _ _ _ _⟩

/-! ## The bytes the host holds (R14, R34, R86) -/

section
variable {s : State} {i k : Nat} (fits : s.poolFits) (inPool : i < s.pool.n.toNat) (inEntry : k < s.pool.esz.toNat)
include fits inPool inEntry

/-- A driver pointer into an entry of a pool without a wrap is not below the base, and is as far from it as the byte's place. -/
theorem State.ptrOf_byte_offset : s.cfg.poolVBase ≤ s.ptrOf i + BitVec.ofNat 64 k ∧
    (s.ptrOf i + BitVec.ofNat 64 k - s.cfg.poolVBase).toNat = i * s.pool.esz.toNat + k := by
  have place := slotNumber_lt inPool inEntry
  unfold State.poolFits at fits
  have pointer : s.ptrOf i + BitVec.ofNat 64 k = s.cfg.poolVBase + BitVec.ofNat 64 (i * s.pool.esz.toNat + k) := by
    rw [State.ptrOf, ptr, BitVec.add_assoc, ← BitVec.ofNat_add]
  have offset : (BitVec.ofNat 64 (i * s.pool.esz.toNat + k)).toNat = i * s.pool.esz.toNat + k := by
    rw [BitVec.toNat_ofNat, Nat.mod_eq_of_lt (by omega)]
  rw [pointer]
  constructor
  · rw [BitVec.le_def, BitVec.toNat_add, offset, Nat.mod_eq_of_lt (by omega)]
    omega
  · rw [BitVec.add_comm, BitVec.add_sub_cancel, offset]

/-- A driver pointer into an entry names the entry and the byte. -/
theorem State.entryAt_ptrOf : s.entryAt (s.ptrOf i + BitVec.ofNat 64 k) = (i, k) := by
  obtain ⟨-, offset⟩ := State.ptrOf_byte_offset fits inPool inEntry
  have sized : 0 < s.pool.esz.toNat := by omega
  rw [State.entryAt, offset, Nat.mul_comm, Nat.mul_add_div sized, Nat.mul_add_mod, Nat.div_eq_of_lt inEntry, Nat.mod_eq_of_lt inEntry,
    Nat.add_zero]

/-- The host holds every byte of an entry that is lent to it. -/
theorem State.hostHolds_of_lent (hasPool : s.pool.present = true) (tag : (s.entry i).tag = .swStack)
    (cap : (s.entry i).cap = s.pool.esz.setWidth 64) : s.hostHolds (s.ptrOf i + BitVec.ofNat 64 k) = true := by
  obtain ⟨base, -⟩ := State.ptrOf_byte_offset fits inPool inEntry
  have inCap : k < (s.entry i).cap.toNat := by
    have := s.pool.esz.isLt
    rw [cap, BitVec.toNat_setWidth, Nat.mod_eq_of_lt (by omega)]
    exact inEntry
  simp [State.hostHolds, State.entryAt_ptrOf fits inPool inEntry, hasPool, base, inPool, tag, inCap]

end

/-! ## Actions of the host (R285) -/

theorem hostAct_storeByte_held {s : State} {p : Addr} (held : s.hostHolds p = true) (b : Byte) : hostAct s (.storeByte p b) =
    .next { s with mem := s.mem.put (s.physOf (s.entryAt p).1 + BitVec.ofNat 64 (s.entryAt p).2).toNat b } := if_pos held

theorem hostAct_storeByte_refused {s : State} {p : Addr} (other : s.hostHolds p = false) (b : Byte) :
    hostAct s (.storeByte p b) = .fault .hostRights := if_neg (by rw [other]; exact nofun)

/-- With no operation executing and no device step scheduled, a step is the host's next action. -/
theorem step_hostAct {s : State} {act : HostAction} {rest : List HostAction} (valid : validParams s.cfg = true) (idle : s.phase = .idle)
    (quiet : s.quiet) (host : s.host = act :: rest) : step s = hostAct { s with host := rest } act := by
  have built : ¬ validParams s.cfg = false := by rw [valid]; exact nofun
  simp only [step, stepOf, if_neg built, idle, idleStep, host, State.envTurn_quiet quiet]

/-- Settles O53: the host's next action decides, and a pointer into a lent entry names the byte that a store changes. -/
theorem hostActsBetweenOperations : Obligations.HostActsBetweenOperations := by
  intro s act rest valid idle quiet host
  rw [step_hostAct valid idle quiet host]
  refine ⟨?a0, ?a1, ?a2, ?cmd, ?pause, ?refused, ?load, ?store⟩
  case a0 | a1 | a2 | cmd => rintro v rfl; rfl
  case pause => rintro rfl; rfl
  case refused => rintro p b rfl other; exact hostAct_storeByte_refused (s := { s with host := rest }) other b
  case load => rintro p rfl; rfl
  case store =>
    rintro i k b fits hasPool inPool tag inEntry cap rfl
    have held : s.hostHolds (s.ptrOf i + BitVec.ofNat 64 k) = true := State.hostHolds_of_lent fits inPool inEntry hasPool tag cap
    have place : s.entryAt (s.ptrOf i + BitVec.ofNat 64 k) = (i, k) := State.entryAt_ptrOf fits inPool inEntry
    refine (hostAct_storeByte_held (s := { s with host := rest }) held b).trans ?_
    rw [show ({ s with host := rest } : State).entryAt _ = (i, k) from place]
    rfl

end Sys2Proof.Machine
end

section
/-! How an operation ends as the host sees it (R300 to R312): it refuses, and nothing of the block has changed; it completes with OK; or it
halts the block, with nothing but the trap's own writes in the latches. -/

namespace Sys2Proof.Machine

/-! ## Nothing but the environment has acted (R79) -/

/-- From `s` to `u` the environment has had turns and has answered, and no more: with no device step scheduled only its coming choices
differ. -/
structure Waited (s u : State) : Prop where
  around : EnvChange s u
  still : s.quiet → u = { s with env := u.env }

theorem Waited.refl (s : State) : Waited s s := ⟨.refl s, fun _ => rfl⟩

theorem State.envTurn_waited (s : State) : Waited s s.envTurn :=
  ⟨s.envTurn_envChange, fun quiet => by rw [State.envTurn_quiet quiet]⟩

theorem State.askBacking_waited (s : State) (bytes : Nat) : Waited s (s.askBacking bytes).2 :=
  ⟨s.askBacking_envChange bytes, fun _ => s.askBacking_frame bytes⟩

/-- A pool that is not created has left the block as it was (R181). -/
theorem State.poolCreate_waited {s : State} {count size : Nat} (refused : (s.poolCreate count size).1 = false) :
    Waited s (s.poolCreate count size).2 := by
  rcases s.poolCreate_cases count size with ⟨e, -⟩ | ⟨-, -, -, ⟨-, e⟩ | ⟨-, e⟩⟩
  · rw [e]; exact .refl s
  · rw [e]; exact s.askBacking_waited _
  · rw [e] at refused; cases refused

/-- What a refusal after waiting has changed (R12, R300). -/
theorem Waited.unchanged {s u t : State} (h : Waited s u) (same : t = { u with st := t.st, phase := t.phase }) :
    s.sameBlock t ∧ (s.quiet → t = { s with st := t.st, phase := t.phase, env := t.env }) := by
  refine ⟨?_, fun quiet => ?_⟩
  · rw [same, h.around.same]
    exact ⟨rfl, rfl, rfl, rfl, rfl, rfl, rfl, rfl, rfl, rfl, rfl, rfl, rfl, rfl⟩
  · rw [same, h.still quiet]

/-! ## Phase and latches (R22, R24, R25) -/

/-- Phase, halt latch and cause of `t` are those of `s`. -/
def State.sameControl (s t : State) : Prop := t.phase = s.phase ∧ t.halted = s.halted ∧ t.hcause = s.hcause

/-- Phase and every latch of `t` are those of `s`. -/
def State.sameLatches (s t : State) : Prop := s.sameControl t ∧ t.inited = s.inited

theorem State.sameLatches.refl (s : State) : s.sameLatches s := ⟨⟨rfl, rfl, rfl⟩, rfl⟩

theorem State.sameLatches.control {s t : State} (h : s.sameLatches t) : s.sameControl t := h.1

theorem State.sameLatches.phase {s t : State} (h : s.sameLatches t) : t.phase = s.phase := h.control.1

theorem State.sameLatches.trans {s t u : State} (h : s.sameLatches t) (k : t.sameLatches u) : s.sameLatches u := by
  obtain ⟨⟨phase, halted, cause⟩, inited⟩ := h
  obtain ⟨⟨phase', halted', cause'⟩, inited'⟩ := k
  exact ⟨⟨phase'.trans phase, halted'.trans halted, cause'.trans cause⟩, inited'.trans inited⟩

section
variable {s t : State} (h : s.sameLatches t)
include h

theorem State.sameLatches.setEnt (i : Nat) (f : Entry → Entry) : s.sameLatches (t.setEnt i f) := h
theorem State.sameLatches.setQueue (q : Nat) (f : Queue → Queue) : s.sameLatches (t.setQueue q f) := h
theorem State.sameLatches.setRxBuffer (tok : Nat) (v : Option Nat) : s.sameLatches (t.setRxBuffer tok v) := h
theorem State.sameLatches.setTxBuffer (tok : Nat) (v : Option Nat) : s.sameLatches (t.setTxBuffer tok v) := h
theorem State.sameLatches.setFreeTx (l : List Nat) : s.sameLatches (t.setFreeTx l) := h
theorem State.sameLatches.setTransport (tr : Transport) : s.sameLatches { t with transport := tr } := h

end

theorem EnvChange.sameLatches {s t : State} (h : EnvChange s t) : s.sameLatches t := by
  rw [h.same]; exact .refl s

theorem Moves.sameLatches {g : Prop} {s t : State} (h : Moves g s t) : s.sameLatches t := by
  rw [h.frame]; exact .refl s

theorem State.poolCreate_sameLatches (s : State) (count size : Nat) : s.sameLatches (s.poolCreate count size).2 := by
  rcases s.poolCreate_cases count size with ⟨e, -⟩ | ⟨-, -, -, ⟨-, e⟩ | ⟨-, e⟩⟩
  · rw [e]; exact .refl s
  · rw [e]; exact (s.askBacking_envChange _).sameLatches
  · rw [e]; exact (s.askBacking_envChange (count * size)).sameLatches

theorem State.receiveBegin_sameLatches (s : State) (i : Nat) : s.sameLatches (s.receiveBegin i).2 := by
  rw [s.receiveBegin_frame]; exact .refl s

theorem State.transmitBegin_sameLatches (s : State) (i nbytes : Nat) : s.sameLatches (s.transmitBegin i nbytes).2 := by
  rw [s.transmitBegin_frame]; exact .refl s

/-! ## The ends of an operation -/

/-- How an operation of a block that is not halted has ended. -/
inductive Concludes (s : State) : State → Prop
  /-- with an answer, while nothing but the environment has acted (R301, R302, R305, R306) -/
  | refuses {u : State} {k : Kind} (waited : Waited s u) (kind : k ≠ .badState) : Concludes s (u.finish k)
  /-- with OK (R12) -/
  | completes {t : State} (control : s.sameControl t) (st : t.st = Kind.ok.code) : Concludes s t
  /-- with the trap (R310) -/
  | halts {u : State} {c : Cause} (latches : s.sameLatches u) : Concludes s (u.raise c)

/-- The next state of the outcome, if it has one, is such an end. -/
def Concluded (s : State) (r : Result) : Prop := ∀ t, r = .next t → Concludes s t

theorem Concludes.concluded {s t : State} (h : Concludes s t) : Concluded s (.next t) := by
  rintro _ ⟨⟩
  exact h

theorem concluded_fault (s : State) (r : Fault) : Concluded s (.fault r) := by
  intro t h
  cases h

section
variable {s u : State} (h : s.sameLatches u)
include h

theorem Concludes.ok : Concludes s u.ok := .completes h.control rfl
theorem Concludes.ok1 (v : Word) : Concludes s (u.ok1 v) := .completes h.control rfl
theorem Concludes.ok3 (a b c : Word) : Concludes s (u.ok3 a b c) := .completes h.control rfl
theorem Concludes.emit (i : Nat) (hdr len : Word) : Concludes s (u.emit i hdr len) := .completes h.control rfl

/-- The end of the init operations (R25). -/
theorem Concludes.opens : Concludes s u.opened.ok := .completes h.control rfl

end

theorem Concludes.phase {s t : State} (h : Concludes s t) : t.phase = s.phase := by
  cases h with
  | refuses waited => exact waited.around.sameLatches.phase
  | completes control => exact control.1
  | halts latches => exact latches.phase

theorem Concludes.kind {s t : State} (h : Concludes s t) : ∃ k : Kind, t.st = k.code := by
  cases h with
  | refuses => exact ⟨_, rfl⟩
  | completes _ st => exact ⟨.ok, st⟩
  | halts => exact ⟨.badState, rfl⟩

/-- An end that is neither OK nor Bad-state is a refusal. -/
theorem Concludes.refused {s t : State} (h : Concludes s t) (notOk : t.st ≠ Kind.ok.code) (notBad : t.st ≠ Kind.badState.code) :
    ∃ u, Waited s u ∧ t = { u with st := t.st, phase := t.phase } := by
  cases h with
  | refuses waited => exact ⟨_, waited, rfl⟩
  | completes _ st => exact absurd st notOk
  | halts => exact absurd rfl notBad

/-- An end in a halted block is the trap. -/
theorem Concludes.trapped {s t : State} (h : Concludes s t) (hs : s.halted = false) (ht : t.halted = true) :
    ∃ u c, s.sameLatches u ∧ t = u.raise c := by
  cases h with
  | refuses waited => exact absurd (hs.symm.trans (waited.around.halted.symm.trans ht)) nofun
  | completes control =>
    obtain ⟨-, halted, -⟩ := control
    exact absurd (hs.symm.trans (halted.symm.trans ht)) nofun
  | halts latches => exact ⟨_, _, latches, rfl⟩

theorem Kind.code_ne_badState {k : Kind} (h : k ≠ .badState) : k.code ≠ Kind.badState.code := by
  cases k with
  | badState => exact absurd rfl h
  | ok | again | nomem | inval | unsupp => decide

/-- An end in a block that runs on keeps the cause and is no report of Bad-state. -/
theorem Concludes.running {s t : State} (h : Concludes s t) (ht : t.halted = false) :
    t.hcause = s.hcause ∧ t.st ≠ Kind.badState.code := by
  cases h with
  | refuses waited kind =>
    obtain ⟨-, -, cause⟩ := waited.around.sameLatches.control
    exact ⟨cause, Kind.code_ne_badState kind⟩
  | completes control st =>
    obtain ⟨-, -, cause⟩ := control
    exact ⟨cause, by rw [st]; decide⟩
  | halts => cases ht

/-! ## Preambles (R308) -/

/-- A preamble that ends an operation ends it in one of these ways. -/
def Guards (s : State) (c : Option State) : Prop := ∀ t, c = some t → Concludes s t

theorem Guards.orElse {s : State} {a b : Option State} (ha : Guards s a) (hb : Guards s b) : Guards s (a <|> b) := by
  cases a with
  | none => simpa using hb
  | some u => exact ha

theorem Guards.ite {s t : State} {p : Prop} [Decidable p] (h : Concludes s t) : Guards s (if p then some t else none) := by
  intro u hu
  split at hu <;> cases hu
  exact h

theorem Guards.getD {s t : State} {c : Option State} (guards : Guards s c) (go : c = none → Concludes s t) :
    Concluded s (.next (c.getD t)) := by
  cases c with
  | none => exact (go rfl).concluded
  | some u => exact (guards u rfl).concluded

/-- A check that passes or refuses. -/
theorem Concludes.refusal (s : State) {k : Kind} (kind : k ≠ .badState) : Concludes s (s.finish k) := .refuses (.refl s) kind

/-- A check that passes or halts. -/
theorem Concludes.trap (s : State) (c : Cause) : Concludes s (s.raise c) := .halts (.refl s)

theorem guards_queueCheck (q : Nat) (s : State) : Guards s (queueCheck q s) := .ite (.refusal s nofun)

theorem guards_slotCheck (s : State) : Guards s (slotCheck s) := .ite (.refusal s nofun)

theorem guards_initedCheck (s : State) : Guards s (initedCheck s) := by
  intro t ht
  unfold initedCheck at ht
  split at ht <;> cases ht
  exact .trap s _

theorem guards_familyCheck (f : Family) (s : State) : Guards s (familyCheck f s) := by
  intro t ht
  unfold familyCheck at ht
  split at ht <;> cases ht
  exact .refusal s nofun

section
variable {s : State} (hs : s.halted = false)
include hs

theorem guards_haltCheck : Guards s (haltCheck s) := by
  rw [haltCheck_running hs]
  intro t ht
  cases ht

theorem guards_codecCheck (q : Nat) : Guards s (codecCheck q s) :=
  (guards_haltCheck hs).orElse ((guards_queueCheck q s).orElse (guards_slotCheck s))

theorem guards_crCheck : Guards s (crCheck s) :=
  (guards_haltCheck hs).orElse ((guards_familyCheck _ s).orElse (guards_initedCheck s))

theorem guards_crQueueCheck (q : Nat) : Guards s (crQueueCheck q s) := (guards_crCheck hs).orElse (guards_queueCheck q s)

theorem guards_trCheck : Guards s (trCheck s) :=
  (guards_haltCheck hs).orElse ((guards_familyCheck _ s).orElse (guards_initedCheck s))

theorem guards_initCheck (f : Family) : Guards s (initCheck f s) :=
  (guards_haltCheck hs).orElse ((guards_familyCheck _ s).orElse ((Guards.ite (.trap s _)).orElse (.ite (.trap s _))))

end

end Sys2Proof.Machine
end

section
/-! Every operation taken to its end: a refusal, OK or the trap; but for `SYS.RESET`, and for the spinning wait of `TXD.WAITDD` (R164). -/

namespace Sys2Proof.Machine

/-! ## Behind the preamble: codec and pool -/

section
variable {s : State} (hs : s.halted = false)
include hs

/-- A codec operation that reads or writes its descriptor and completes. -/
theorem codec_concluded (q : Nat) {t : State} (ends : Concludes s t) : Concluded s (.next ((codecCheck q s).getD t)) :=
  (guards_codecCheck hs q).getD fun _ => ends

theorem rxReadW0_concluded (q : Nat) (f : Word → Word) : Concluded s (.next (rxReadW0 q f s)) :=
  codec_concluded hs q (.ok1 s.envTurn_envChange.sameLatches _)

theorem rxReadW1_concluded (q : Nat) (f : Word → Word) : Concluded s (.next (rxReadW1 q f s)) :=
  codec_concluded hs q (.ok1 s.envTurn_envChange.sameLatches _)

theorem txReadField_concluded (q : Nat) (off : Addr) (n : Nat) (f : Word → Word) : Concluded s (.next (txReadField q off n f s)) :=
  codec_concluded hs q (.ok1 s.envTurn_envChange.sameLatches _)

/-- One read of the spinning wait (R164): an end, or the wait goes on. -/
theorem execTxdWaitdd_concludes {q : Nat} {t : State} (h : execTxdWaitdd q s = .next t) :
    Concludes s t ∨ t = { s.envTurn with phase := .running } := by
  obtain rfl := Host.Outcome.next.inj h
  cases checked : codecCheck q s with
  | some t => exact Or.inl (guards_codecCheck hs q t checked)
  | none =>
    simp only [Option.getD_none, State.memRead_snd]
    split
    · exact Or.inl (.ok s.envTurn_envChange.sameLatches)
    · exact Or.inr rfl

end

theorem leaseAndEmit_concludes (s : State) : Concludes s (leaseAndEmit s) := by
  unfold leaseAndEmit
  split
  · exact .refusal s nofun
  · exact .emit (.refl s) _ _ _

theorem reclaimAndRelease_concludes (s : State) : Concludes s (reclaimAndRelease s) := by
  unfold reclaimAndRelease
  split
  · exact .trap s _
  · exact .ok (.setEnt (.refl s) _ _)

section
variable {s : State} (hs : s.halted = false)
include hs

theorem execPoolAllocate_concluded : Concluded s (execPoolAllocate s) := by
  refine (guards_haltCheck hs).getD fun _ => ?_
  split
  · exact .trap s _
  dsimp only
  split
  · exact .ok (s.poolCreate_sameLatches _ _)
  next refused => exact .refuses (State.poolCreate_waited (Bool.eq_false_of_not_eq_true refused)) nofun

theorem execPoolAlloc_concluded : Concluded s (execPoolAlloc s) := by
  refine (guards_haltCheck hs).getD fun _ => ?_
  split
  · exact .refusal s nofun
  · exact leaseAndEmit_concludes s

theorem execPoolFree_concluded : Concluded s (execPoolFree s) :=
  (guards_haltCheck hs).getD fun _ => reclaimAndRelease_concludes s

theorem execPoolStat_concluded : Concluded s (execPoolStat s) := by
  refine (guards_haltCheck hs).getD fun _ => ?_
  split <;> exact .ok3 (.refl s) _ _ _

theorem execDevInfo_concluded : Concluded s (execDevInfo s) := by
  refine (guards_haltCheck hs).getD fun _ => ?_
  split
  · exact .ok1 (.refl s) _
  · exact .refusal s nofun

end

/-! ## Behind the preamble: classic ring (R201 to R210) -/

/-- A loop keeps phase and latches where each of its turns does. -/
theorem foldl_sameLatches {f : State → Nat → State} (turn : ∀ (t : State) k, t.sameLatches (f t k)) (n : Nat) (s : State) :
    s.sameLatches ((List.range n).foldl f s) :=
  foldl_range_induct (P := fun _ t => s.sameLatches t) (.refl s) fun k _ t h => h.trans (turn t k)

theorem armRxSlot_sameLatches (q : Nat) (s : State) (slot : Nat) : s.sameLatches (armRxSlot q s slot) := by
  cases lease : s.lease with
  | none => exact (armRxSlot_of_lease_none lease).sameLatches
  | some i => exact (armRxSlot_of_lease_some (q := q) (slot := slot) lease).sameLatches

theorem clearTxSlot_sameLatches (q : Nat) (s : State) (slot : Nat) : s.sameLatches (clearTxSlot q s slot) :=
  (clearTxSlot_envChange q slot s).sameLatches

theorem initQueue_sameLatches (s : State) (q : Nat) : s.sameLatches (initQueue s q) := by
  unfold initQueue
  refine .trans (.trans ?_ (foldl_sameLatches (armRxSlot_sameLatches q) _ _)) (foldl_sameLatches (clearTxSlot_sameLatches q) _ _)
  exact ⟨⟨rfl, rfl, rfl⟩, rfl⟩

theorem crInitBody_concludes (s : State) : Concludes s (crInitBody s) := by
  unfold crInitBody
  split
  · exact .refusal s nofun
  dsimp only
  split
  · exact .opens ((s.poolCreate_sameLatches _ _).trans (foldl_sameLatches initQueue_sameLatches _ _))
  next refused => exact .refuses (State.poolCreate_waited (Bool.eq_false_of_not_eq_true refused)) nofun

/-- The hand-over of a pulled packet, after moves that keep the latches of `s` (R205). -/
theorem popAndEmit_concluded {s u : State} (latches : s.sameLatches u) (q : Nat) : Concluded s (popAndEmit q u) := by
  unfold popAndEmit
  split
  · exact concluded_fault s _
  · exact Concludes.concluded (.emit (latches.setQueue _ _) _ _ _)

theorem crRxBody_concluded {q : Nat} {s : State} (h : s.ringOpen q) : Concluded s (crRxBody q s) := by
  have turn : EnvChange s s.envTurn := s.envTurn_envChange
  unfold crRxBody
  dsimp only
  split
  · exact popAndEmit_concluded (.refl s) q
  next empty =>
  split
  · exact Concludes.concluded (.refuses s.envTurn_waited nofun)
  have batch : s.sameLatches (rxBatch q rxBatchSize 0 s.envTurn).2.2 := by
    refine turn.sameLatches.trans (Moves.sameLatches (g := True) (rxBatch_moves 0 ((turn.moves (g := True)).ringOpen h) ?_))
    rw [turn.queue, not_not.mp empty, List.length_nil, Nat.zero_add]
  split
  · exact concluded_fault s _
  · exact Concludes.concluded (.halts batch)
  · split
    · exact Concludes.concluded (.halts batch)
    · exact popAndEmit_concluded batch q

theorem crTxOwn_concludes (q : Nat) (s : State) : Concludes s (crTxOwn q s) := by
  unfold crTxOwn
  split
  · exact .trap s _
  next i _ =>
  unfold crTxBody
  dsimp only
  split
  · exact .refusal s nofun
  · have sent := s.txSend_envChange (txd s.cfg q (s.queue q).txIndex.toNat) (s.physOf i + (s.entry i).hdrLen) (s.entry i).pktLen
    exact .ok (((sent.sameLatches.setQueue _ _).setEnt _ _).setQueue _ _)

section
variable {s : State} (hs : s.halted = false)
include hs

theorem execCrInit_concluded : Concluded s (execCrInit s) := (guards_initCheck hs _).getD fun _ => crInitBody_concludes s

theorem execCrCanrx_concluded (q : Nat) : Concluded s (execCrCanrx q s) := by
  refine (guards_crQueueCheck hs q).getD fun _ => ?_
  split
  · exact .ok1 (.refl s) _
  · exact .ok1 s.envTurn_envChange.sameLatches _

theorem execCrRx_concluded (q : Nat) : Concluded s (execCrRx q s) := by
  unfold execCrRx
  split
  next t stopped => exact (guards_crQueueCheck hs q t stopped).concluded
  next passed => exact crRxBody_concluded (State.ringOpen_of_check passed)

theorem execCrRxrecycle_concluded : Concluded s (execCrRxrecycle s) :=
  (guards_crCheck hs).getD fun _ => reclaimAndRelease_concludes s

theorem execCrCantx_concluded (q : Nat) : Concluded s (execCrCantx q s) :=
  (guards_crQueueCheck hs q).getD fun _ => .ok1 (.refl s) _

theorem execCrTx_concluded (q : Nat) : Concluded s (execCrTx q s) := by
  rw [execCrTx_eq]
  exact (guards_crQueueCheck hs q).getD fun _ => crTxOwn_concludes q s

theorem execCrTxrecycle_concluded (q : Nat) : Concluded s (execCrTxrecycle q s) := by
  refine (guards_crQueueCheck hs q).getD fun passed => ?_
  have reclaimed : Moves True s (txReclaim q (QS s.cfg) s) := txReclaim_moves (State.ringOpen_of_check passed)
  exact .ok reclaimed.sameLatches

theorem execCrTxalloc_concluded : Concluded s (execCrTxalloc s) := by
  refine (guards_crCheck hs).getD fun _ => ?_
  split
  · exact .refusal s nofun
  · exact leaseAndEmit_concludes s

end

/-! ## Behind the preamble: token ring (R231 to R238) -/

/-- The submissions of `TR.INIT` (R231): every one begun as expected, or the trap at the first that is not. -/
theorem submitRx_sameLatches (ts : List Nat) (s : State) :
    s.sameLatches (submitRx ts s) ∨ ∃ u c, s.sameLatches u ∧ submitRx ts s = u.raise c := by
  induction ts generalizing s with
  | nil => exact Or.inl (.refl s)
  | cons tok ts ih =>
    cases lease : s.lease with
    | none => rw [submitRx, lease]; exact Or.inl (.refl s)
    | some i =>
      obtain ⟨u, around, e | ⟨tr, e⟩⟩ := submitRx_cons (tok := tok) (ts := ts) lease
      · have one : s.sameLatches (u.submitted tok i) := ((around.sameLatches.setEnt _ _).setRxBuffer _ _).setTransport _
        rw [e]
        rcases ih (u.submitted tok i) with rest | ⟨v, c, rest, halts⟩
        · exact Or.inl (one.trans rest)
        · exact Or.inr ⟨v, c, one.trans rest, halts⟩
      · exact Or.inr ⟨_, _, (around.sameLatches.setEnt _ _).setTransport tr, e⟩

theorem prefillTx_sameLatches (s : State) (k : Nat) : s.sameLatches (prefillTx s k) := by
  unfold prefillTx
  split
  · exact .refl s
  · exact (((s.fillHeader_envChange _).sameLatches.setEnt _ _).setFreeTx _).setTxBuffer _ _

theorem trInitBody_concludes {s : State} (hs : s.halted = false) : Concludes s (trInitBody s) := by
  have created := s.poolCreate_sameLatches (2 * QS s.cfg) s.cfg.poolEsz.toNat
  unfold trInitBody
  dsimp only
  split
  next refused => exact .refuses (State.poolCreate_waited refused) nofun
  rcases submitRx_sameLatches (List.range (QS s.cfg)) ((s.poolCreate (2 * QS s.cfg) s.cfg.poolEsz.toNat).2.setFreeTx [])
    with rest | ⟨u, c, rest, halts⟩
  · have submitted := created.trans rest
    obtain ⟨-, halted, -⟩ := submitted.control
    rw [if_neg (by rw [halted]; exact ne_true_of_eq_false hs)]
    exact .opens (submitted.trans (foldl_sameLatches prefillTx_sameLatches _ _))
  · rw [halts, if_pos (u.raise_halted c)]
    exact .halts (created.trans rest)

theorem trRxBody_concluded (s : State) : Concluded s (trRxBody s) := by
  have polled : s.sameLatches s.pollReceive.2 := s.envTurn_envChange.sameLatches
  unfold trRxBody
  dsimp only
  split
  · exact Concludes.concluded (.refuses s.envTurn_waited nofun)
  split
  · exact Concludes.concluded (.halts polled)
  split
  · exact Concludes.concluded (.halts polled)
  split
  · exact concluded_fault s _
  next c completed =>
  obtain ⟨v, -, -, around, -, -, -, after⟩ := State.receiveComplete_setRxBuffer completed
  rw [after]
  exact Concludes.concluded (.emit (((polled.trans around.sameLatches).setRxBuffer _ _).setTransport _) _ _ _)

theorem trRxrecycleBody_concludes (s : State) : Concludes s (trRxrecycleBody s) := by
  unfold trRxrecycleBody
  split
  · exact .trap s _
  next i _ =>
  have begun : s.sameLatches
      ((s.setEnt i (fun e => { e with hdrLen := 0#64, pktLen := 0#64, wire := none, tag := .hw })).receiveBegin i).2 :=
    State.receiveBegin_sameLatches _ _
  dsimp only
  split
  · exact .halts begun
  split
  · exact .halts begun
  split
  · exact .halts begun
  · exact .ok (begun.setRxBuffer _ _)

theorem trTxBody_concludes (s : State) : Concludes s (trTxBody s) := by
  unfold trTxBody
  split
  · exact .trap s _
  next i _ =>
  have begun : s.sameLatches ((s.canSend.2.setEnt i (fun e => { e with wire := none, tag := .hw })).transmitBegin i
      ((s.entry i).hdrLen.toNat + (s.entry i).pktLen.toNat)).2 :=
    s.envTurn_envChange.sameLatches.trans (State.transmitBegin_sameLatches _ _ _)
  dsimp only
  split
  · exact .refuses s.envTurn_waited nofun
  split
  · exact .halts begun
  split
  · exact .halts begun
  split
  · exact .halts begun
  · exact .ok (begun.setTxBuffer _ _)

/-- The drain loop, after completions that keep the latches of `s` (R237). -/
theorem txDrain_concluded {s u : State} (latches : s.sameLatches u) (fuel : Nat) : Concluded s (txDrain fuel u) := by
  induction fuel generalizing u with
  | zero => exact Concludes.concluded (.ok latches)
  | succ fuel ih =>
    have polled : s.sameLatches u.pollTransmit.2 := latches.trans u.envTurn_envChange.sameLatches
    unfold txDrain
    dsimp only
    split
    · exact Concludes.concluded (.ok polled)
    split
    · exact Concludes.concluded (.halts polled)
    split
    · exact Concludes.concluded (.halts polled)
    split
    · exact concluded_fault s _
    next t completed =>
    obtain ⟨v, -, -, around, -, -, -, rfl⟩ := State.transmitComplete_setTxBuffer completed
    exact ih (((((polled.trans around.sameLatches).setTxBuffer _ _).setTransport _).setEnt _ _).setFreeTx _)

theorem trTxallocBody_concludes (s : State) : Concludes s (trTxallocBody s) := by
  unfold trTxallocBody
  split
  · exact .refusal s nofun
  split
  · exact .refusal s nofun
  · exact .emit (.setFreeTx (.refl s) _) _ _ _

section
variable {s : State} (hs : s.halted = false)
include hs

theorem execTrInit_concluded : Concluded s (execTrInit s) := (guards_initCheck hs _).getD fun _ => trInitBody_concludes hs

theorem execTrCanrx_concluded : Concluded s (execTrCanrx s) :=
  (guards_trCheck hs).getD fun _ => .ok1 s.envTurn_envChange.sameLatches _

theorem execTrRx_concluded : Concluded s (execTrRx s) := by
  unfold execTrRx
  split
  next t stopped => exact (guards_trCheck hs t stopped).concluded
  · exact trRxBody_concluded s

theorem execTrRxrecycle_concluded : Concluded s (execTrRxrecycle s) :=
  (guards_trCheck hs).getD fun _ => trRxrecycleBody_concludes s

theorem execTrCantx_concluded : Concluded s (execTrCantx s) :=
  (guards_trCheck hs).getD fun _ => .ok1 s.envTurn_envChange.sameLatches _

theorem execTrTx_concluded : Concluded s (execTrTx s) := (guards_trCheck hs).getD fun _ => trTxBody_concludes s

theorem execTrTxrecycle_concluded : Concluded s (execTrTxrecycle s) := by
  unfold execTrTxrecycle
  split
  next t stopped => exact (guards_trCheck hs t stopped).concluded
  · exact txDrain_concluded (.refl s) _

theorem execTrTxalloc_concluded : Concluded s (execTrTxalloc s) := (guards_trCheck hs).getD fun _ => trTxallocBody_concludes s

/-! ## The contract (R260), and every operation -/

theorem byFamily_concluded {classic token : State → Result} (hc : Concluded s (classic s)) (ht : Concluded s (token s)) :
    Concluded s (byFamily classic token s) := by
  cases family : s.cfg.family with
  | classic => rw [byFamily_classic hs family]; exact hc
  | token => rw [byFamily_token hs family]; exact ht

theorem byFamilyQueued_concluded (q : Nat) {classic token : State → Result} (hc : Concluded s (classic s))
    (ht : Concluded s (token s)) : Concluded s (byFamilyQueued q classic token s) := by
  refine byFamily_concluded hs hc ?_
  split
  next t stopped => exact ((guards_initedCheck s).orElse (guards_queueCheck q s) t stopped).concluded
  · exact ht

/-- Every operation of a block that is not halted ends in one of these ways, but for the reset and the spinning wait. -/
theorem exec_concluded {i : Instr} (notReset : i ≠ .sysReset) (notWait : ∀ q, i ≠ .txdWaitdd q) : Concluded s (exec i s) := by
  cases i with
  | sysReset => exact absurd rfl notReset
  | txdWaitdd q => exact absurd rfl (notWait q)
  | rxdInit q => exact codec_concluded hs q (.ok (s.rxInit_envChange _).sameLatches)
  | rxdSetaddr q => exact codec_concluded hs q (.ok (s.rxSetAddr_envChange _ _).sameLatches)
  | rxdRststat q => exact codec_concluded hs q (.ok (s.rxRstStat_envChange _).sameLatches)
  | txdInit q => exact codec_concluded hs q (.ok (s.txInit_envChange _).sameLatches)
  | txdSend q => exact codec_concluded hs q (.ok (s.txSend_envChange _ _ _).sameLatches)
  | rxdRsstype q | rxdPkttype q | rxdHdrlen q | rxdRsshash q => exact rxReadW0_concluded hs q _
  | rxdDd q | rxdEop q | rxdLen q | rxdXstatus q | rxdXerror q | rxdVlan q => exact rxReadW1_concluded hs q _
  | txdPolldd q | txdGetaddr q | txdGetlen q | txdGetpaylen q => exact txReadField_concluded hs q _ _ _
  | poolAllocate => exact execPoolAllocate_concluded hs
  | poolAlloc => exact execPoolAlloc_concluded hs
  | poolFree => exact execPoolFree_concluded hs
  | poolStat => exact execPoolStat_concluded hs
  | crInit => exact execCrInit_concluded hs
  | crCanrx q => exact execCrCanrx_concluded hs q
  | crRx q => exact execCrRx_concluded hs q
  | crRxrecycle => exact execCrRxrecycle_concluded hs
  | crCantx q => exact execCrCantx_concluded hs q
  | crTx q => exact execCrTx_concluded hs q
  | crTxrecycle q => exact execCrTxrecycle_concluded hs q
  | crTxalloc => exact execCrTxalloc_concluded hs
  | trInit => exact execTrInit_concluded hs
  | trCanrx => exact execTrCanrx_concluded hs
  | trRx => exact execTrRx_concluded hs
  | trRxrecycle => exact execTrRxrecycle_concluded hs
  | trCantx => exact execTrCantx_concluded hs
  | trTx => exact execTrTx_concluded hs
  | trTxrecycle => exact execTrTxrecycle_concluded hs
  | trTxalloc => exact execTrTxalloc_concluded hs
  | devInit => exact byFamily_concluded hs (execCrInit_concluded hs) (execTrInit_concluded hs)
  | devCanrx q => exact byFamilyQueued_concluded hs q (execCrCanrx_concluded hs q) (execTrCanrx_concluded hs)
  | devRx q => exact byFamilyQueued_concluded hs q (execCrRx_concluded hs q) (execTrRx_concluded hs)
  | devRxrecycle => exact byFamily_concluded hs (execCrRxrecycle_concluded hs) (execTrRxrecycle_concluded hs)
  | devCantx q => exact byFamilyQueued_concluded hs q (execCrCantx_concluded hs q) (execTrCantx_concluded hs)
  | devTx q => exact byFamilyQueued_concluded hs q (execCrTx_concluded hs q) (execTrTx_concluded hs)
  | devTxrecycle q => exact byFamilyQueued_concluded hs q (execCrTxrecycle_concluded hs q) (execTrTxrecycle_concluded hs)
  | devTxalloc => exact byFamily_concluded hs (execCrTxalloc_concluded hs) (execTrTxalloc_concluded hs)
  | devInfo => exact execDevInfo_concluded hs

/-- The same of every operation but the reset, where one read of the wait may leave it spinning. -/
theorem exec_concludes_or_spins {i : Instr} {t : State} (notReset : i ≠ .sysReset) (h : exec i s = .next t) :
    Concludes s t ∨ ((∃ q, i = .txdWaitdd q) ∧ t = { s.envTurn with phase := .running }) := by
  by_cases wait : ∃ q, i = .txdWaitdd q
  · obtain ⟨q, rfl⟩ := wait
    exact (execTxdWaitdd_concludes hs h).imp_right fun spins => ⟨⟨q, rfl⟩, spins⟩
  · exact Or.inl (exec_concluded hs notReset (fun q e => wait ⟨q, e⟩) t h)

end

end Sys2Proof.Machine
end

section
/-! What the ends of the operations say of kinds, refusals and the trap (R300 to R312). -/

namespace Sys2Proof.Machine

/-- What a halted block answers (R309), as an equation for the next state. -/
theorem eq_of_exec_halted {i : Instr} {s t : State} (hs : s.halted = true) (notReset : i ≠ .sysReset) (h : exec i s = .next t) :
    t = s.finish .badState := Host.Outcome.next.inj (h.symm.trans (exec_halted hs notReset))

/-- Settles O43: the answer of a halted block, the reset, and every end of an operation carry a kind and no phase of their own. -/
theorem operationsEndWithAKind : Obligations.OperationsEndWithAKind := by
  intro i s t idle notWait h
  by_cases reset : i = .sysReset
  · subst reset
    cases h
    exact ⟨rfl, .ok, rfl⟩
  cases hs : s.halted with
  | true =>
    obtain rfl := eq_of_exec_halted hs reset h
    exact ⟨idle, .badState, rfl⟩
  | false =>
    have ends := exec_concluded hs reset notWait t h
    exact ⟨ends.phase.trans idle, ends.kind⟩

/-- Settles O45: an end with one of the four kinds, and a wait that spins with an old one in `ST`, leave the block as the environment's
turn leaves it. -/
theorem refusalsChangeNothing : Obligations.RefusalsChangeNothing := by
  intro i s t h refused
  have notOk : t.st ≠ Kind.ok.code := by rcases refused with e | e | e | e <;> rw [e] <;> decide
  have notBad : t.st ≠ Kind.badState.code := by rcases refused with e | e | e | e <;> rw [e] <;> decide
  by_cases reset : i = .sysReset
  · subst reset
    cases h
    exact absurd rfl notOk
  rcases Bool.eq_false_or_eq_true s.halted with hs | hs
  · obtain rfl := eq_of_exec_halted hs reset h
    exact absurd rfl notBad
  rcases exec_concludes_or_spins hs reset h with ends | ⟨-, spins⟩
  · obtain ⟨u, waited, same⟩ := ends.refused notOk notBad
    exact waited.unchanged same
  · exact s.envTurn_waited.unchanged (by rw [spins])

/-- Settles O46: a halt is the trap over latches that are still those of the start, and results are written only with OK. -/
theorem trapEntryWritesCause : Obligations.TrapEntryWritesCause := by
  intro i s t hs h
  by_cases reset : i = .sysReset
  · subst reset
    cases h
    exact ⟨nofun, fun _ other => absurd rfl other⟩
  rcases exec_concludes_or_spins hs reset h with ends | ⟨⟨q, rfl⟩, rfl⟩
  · refine ⟨fun ht => ?_, fun ht _ => (ends.running ht).imp_right fun st _ => st⟩
    obtain ⟨-, -, -, -, -, -, results⟩ := resultsOnlyWithOk i s t reset h
    obtain ⟨u, c, ⟨⟨phase, -, -⟩, inited⟩, rfl⟩ := ends.trapped hs ht
    obtain ⟨v0, v1, v2⟩ := results raise_st_ne
    have range : 1 ≤ c.code.toNat ∧ c.code.toNat ≤ 13 := by cases c <;> decide
    exact ⟨rfl, range.1, range.2, v0, v1, v2, inited, phase⟩
  · exact ⟨fun ht => absurd (hs.symm.trans (s.envTurn_halted.symm.trans ht)) nofun,
      fun _ _ => ⟨s.envTurn_hcause, fun notWait => absurd rfl (notWait q)⟩⟩

end Sys2Proof.Machine
end

section
/-! The halted block (R309, R311): every command but `SYS.RESET` is answered with Bad-state alone, and no step but a reset changes what the
halt has frozen. -/

namespace Sys2Proof.Machine

/-! ## What stays (R310, R311) -/

/-- `t` is halted with the cause of `s`, and its results, latches, indices, arrays and pool are those of `s`. -/
def State.frozen (s t : State) : Prop :=
  t.halted = true ∧ t.hcause = s.hcause ∧ t.inited = s.inited ∧ t.v0 = s.v0 ∧ t.v1 = s.v1 ∧ t.v2 = s.v2 ∧ t.queues = s.queues ∧
    t.pool = s.pool ∧ t.token = s.token

theorem State.frozen_refl {s : State} (hs : s.halted = true) : s.frozen s := ⟨hs, rfl, rfl, rfl, rfl, rfl, rfl, rfl, rfl⟩

theorem EnvChange.frozen {s t : State} (h : EnvChange s t) (hs : s.halted = true) : s.frozen t := by
  rw [h.same]
  exact State.frozen_refl hs

/-- An action of the host other than the external reset reaches registers, `CMD` and memory alone (R285). -/
theorem hostAct_frozen {s u t : State} {act : HostAction} (frozen : s.frozen u) (other : act ≠ .extReset)
    (h : hostAct u act = .next t) : s.frozen t := by
  cases act with
  | writeA0 | writeA1 | writeA2 | writeCmd | pause => cases h; exact frozen
  | storeByte p b =>
    unfold hostAct at h
    dsimp only at h
    split at h <;> cases h
    exact frozen
  | loadByte p =>
    unfold hostAct at h
    dsimp only at h
    split at h <;> cases h
    exact frozen
  | extReset => exact absurd rfl other

/-! ## Commands (R308 items 1 and 2, R309) -/

/-- The one word of `SYS.RESET` (R342). -/
theorem eq_of_decode_sysReset {c : BitVec 32} (h : decode c = .ok .sysReset) : c = 0x7F#32 := (encodeOfDecode c _ h).2.symm

/-- Every command word of a halted block but that of `SYS.RESET`, a reserved one too. -/
theorem runCommand_halted {s : State} (hs : s.halted = true) (other : s.cmd ≠ 0x7F#32) :
    runCommand s = .next { s with phase := .idle, st := 4#8 } := by
  cases decoded : decode s.cmd with
  | ok i =>
    have notReset : i ≠ .sysReset := fun e => other (eq_of_decode_sysReset (e ▸ decoded))
    rw [runCommand, decoded]
    exact exec_halted (s := { s with phase := .idle }) hs notReset
  | error =>
    rw [runCommand, decoded]
    dsimp only
    rw [reservedCommand_eq, if_pos hs]

/-- A pause passed leaves all but the host's list. -/
theorem State.passPause_frozen {s : State} (hs : s.halted = true) : s.frozen s.passPause := by
  unfold State.passPause
  split <;> exact State.frozen_refl hs

/-- A command of a halted block, seen from a state with the same frozen part. -/
theorem runCommand_frozen {s u t : State} (frozen : s.frozen u) (other : u.cmd ≠ 0x7F#32) (h : runCommand u = .next t) :
    s.frozen t := by
  obtain rfl := Host.Outcome.next.inj ((runCommand_halted frozen.1 other).symm.trans h)
  exact frozen

/-! ## The statements -/

/-- Settles O47: an operation by its preamble, a command word by its decoding, and with no command the environment has its turn. -/
theorem haltedBlockIsFrozen : Obligations.HaltedBlockIsFrozen := by
  refine ⟨fun i s hs notReset => exec_halted hs notReset, fun s valid hs issued other => ?_, fun s valid _ idle noHost => ?_⟩
  · have built : ¬ validParams s.cfg = false := by rw [valid]; exact nofun
    rw [step, stepOf, if_neg built, issued]
    exact runCommand_halted hs other
  · have built : ¬ validParams s.cfg = false := by rw [valid]; exact nofun
    rw [step, stepOf, if_neg built, idle]
    simp only [idleStep, noHost]

/-- Settles O48: by what the step takes up: the environment and the host, a command, or a spinning wait. -/
theorem onlyResetLeavesHalt : Obligations.OnlyResetLeavesHalt := by
  intro s t hs h
  have turn : s.frozen s.envTurn := s.envTurn_envChange.frozen hs
  unfold step stepOf at h
  split at h
  · cases h
  split at h
  next idle =>
    unfold idleStep at h
    split at h
    · cases h
      exact Or.inl turn
    next act rest host =>
    by_cases reset : act = .extReset
    · exact Or.inr (Or.inr ⟨by rw [idle]; exact nofun, by rw [host, reset]; rfl⟩)
    · exact Or.inl (hostAct_frozen (u := { s.envTurn with host := rest }) turn reset h)
  next issued =>
    by_cases word : s.cmd = 0x7F#32
    · exact Or.inr (Or.inl ⟨by rw [issued]; exact nofun, word⟩)
    · exact Or.inl (runCommand_frozen (State.frozen_refl hs) word h)
  next running =>
    by_cases reset : s.host.head? = some .extReset
    · exact Or.inr (Or.inr ⟨by rw [running]; exact nofun, reset⟩)
    by_cases word : s.cmd = 0x7F#32
    · exact Or.inr (Or.inl ⟨by rw [running]; exact nofun, word⟩)
    · rw [spinStep_of_no_reset reset] at h
      exact Or.inl (runCommand_frozen (State.passPause_frozen hs) (by rw [s.passPause_cmd]; exact word) h)

end Sys2Proof.Machine
end

section
/-! The gates of the ring operations (R306, R307, R308 items 4 to 6): what each check answers, and that an operation answers what its
preamble does. -/

namespace Sys2Proof.Machine

/-! ## What the checks answer -/

section
variable {s : State} (hs : s.halted = false)
include hs

theorem crCheck_otherFamily (family : s.cfg.family = .token) : crCheck s = some (s.finish .unsupp) := by
  rw [crCheck_eq, if_neg (by simp [hs]), if_neg (by simp [family])]

theorem crCheck_closed (family : s.cfg.family = .classic) (closed : s.inited = false) : crCheck s = some (s.raise .notInited) := by
  rw [crCheck_eq, if_neg (by simp [hs]), if_pos family, if_neg (by simp [closed])]

theorem trCheck_otherFamily (family : s.cfg.family = .classic) : trCheck s = some (s.finish .unsupp) := by
  rw [trCheck_eq, if_neg (by simp [hs]), if_neg (by simp [family])]

theorem crQueueCheck_outside {q : Nat} (family : s.cfg.family = .classic) (open' : s.inited = true) (outside : QN s.cfg ≤ q) :
    crQueueCheck q s = some (s.finish .inval) := by
  rw [crQueueCheck, (crCheck_none s).mpr ⟨hs, family, open'⟩]
  exact if_pos outside

end

theorem initedCheck_closed {s : State} (closed : s.inited = false) : initedCheck s = some (s.raise .notInited) := by
  rw [initedCheck, if_neg (by simp [closed])]

/-! ## Which operation has which preamble (R200, R230) -/

/-- An operation that answers what the preamble answers where that one ends it. -/
def Gated (check : State → Option State) (op : State → Result) : Prop := ∀ s t, check s = some t → op s = .next t

theorem gated_getD (check : State → Option State) (own : State → State) : Gated check fun s => .next ((check s).getD (own s)) := by
  intro s t stopped
  simp only [stopped, Option.getD_some]

/-- The preamble with a queue begins with the one without. -/
theorem Gated.of_queue {q : Nat} {op : State → Result} (h : Gated (crQueueCheck q) op) : Gated crCheck op := by
  intro s t stopped
  refine h s t ?_
  rw [crQueueCheck, stopped]
  rfl

theorem gated_execCrRx (q : Nat) : Gated (crQueueCheck q) (execCrRx q) := by
  intro s t stopped
  rw [execCrRx, stopped]

theorem gated_execTrRx : Gated trCheck execTrRx := by
  intro s t stopped
  rw [execTrRx, stopped]

theorem gated_execTrTxrecycle : Gated trCheck execTrTxrecycle := by
  intro s t stopped
  rw [execTrTxrecycle, stopped]

theorem gated_of_crQueued {q : Nat} {op : Instr} (hop : op ∈ [Instr.crCanrx q, .crRx q, .crCantx q, .crTx q, .crTxrecycle q]) :
    Gated (crQueueCheck q) (exec op) := by
  simp only [List.mem_cons, List.not_mem_nil, or_false] at hop
  rcases hop with rfl | rfl | rfl | rfl | rfl
  · exact gated_getD _ _
  · exact gated_execCrRx q
  · exact gated_getD _ _
  · exact gated_getD _ _
  · exact gated_getD _ _

theorem gated_of_cr {q : Nat} {op : Instr}
    (hop : op ∈ [Instr.crCanrx q, .crRx q, .crRxrecycle, .crCantx q, .crTx q, .crTxrecycle q, .crTxalloc]) :
    Gated crCheck (exec op) := by
  simp only [List.mem_cons, List.not_mem_nil, or_false] at hop
  have queued {op : Instr} (hop : op ∈ [Instr.crCanrx q, .crRx q, .crCantx q, .crTx q, .crTxrecycle q]) : Gated crCheck (exec op) :=
    (gated_of_crQueued hop).of_queue
  rcases hop with rfl | rfl | rfl | rfl | rfl | rfl | rfl
  · exact queued (by simp)
  · exact queued (by simp)
  · exact gated_getD _ _
  · exact queued (by simp)
  · exact queued (by simp)
  · exact queued (by simp)
  · exact gated_getD _ _

theorem gated_of_tr {op : Instr} (hop : op ∈ [Instr.trCanrx, .trRx, .trRxrecycle, .trCantx, .trTx, .trTxrecycle, .trTxalloc]) :
    Gated trCheck (exec op) := by
  simp only [List.mem_cons, List.not_mem_nil, or_false] at hop
  rcases hop with rfl | rfl | rfl | rfl | rfl | rfl | rfl
  · exact gated_getD _ _
  · exact gated_execTrRx
  · exact gated_getD _ _
  · exact gated_getD _ _
  · exact gated_getD _ _
  · exact gated_execTrTxrecycle
  · exact gated_getD _ _

/-! ## The contract before `INIT` (R260, R307) -/

section
variable {s : State} (hs : s.halted = false) (closed : s.inited = false) {classic token : State → Result} (hc : Gated crCheck classic)
include hs closed hc

theorem byFamily_closed (ht : Gated trCheck token) : byFamily classic token s = .next (s.raise .notInited) := by
  cases family : s.cfg.family with
  | classic => exact (byFamily_classic hs family _ _).trans (hc s _ (crCheck_closed hs family closed))
  | token => exact (byFamily_token hs family _ _).trans (ht s _ (trCheck_closed hs family closed))

/-- The contract's own check of the latch comes before its check of the queue (log 14). -/
theorem byFamilyQueued_closed (q : Nat) : byFamilyQueued q classic token s = .next (s.raise .notInited) := by
  cases family : s.cfg.family with
  | classic => exact (byFamily_classic hs family _ _).trans (hc s _ (crCheck_closed hs family closed))
  | token =>
    refine (byFamily_token hs family _ _).trans ?_
    rw [initedCheck_closed closed]
    rfl

end

theorem exec_dev_closed {q : Nat} {s : State} {op : Instr} (hs : s.halted = false) (closed : s.inited = false)
    (hop : op ∈ [Instr.devCanrx q, .devRx q, .devRxrecycle, .devCantx q, .devTx q, .devTxrecycle q, .devTxalloc]) :
    exec op s = .next (s.raise .notInited) := by
  have cr {op : Instr} (hop : op ∈ [Instr.crCanrx q, .crRx q, .crRxrecycle, .crCantx q, .crTx q, .crTxrecycle q, .crTxalloc]) :
      Gated crCheck (exec op) := gated_of_cr hop
  simp only [List.mem_cons, List.not_mem_nil, or_false] at hop
  rcases hop with rfl | rfl | rfl | rfl | rfl | rfl | rfl
  · exact byFamilyQueued_closed hs closed (cr (op := .crCanrx q) (by simp)) q
  · exact byFamilyQueued_closed hs closed (cr (op := .crRx q) (by simp)) q
  · exact byFamily_closed hs closed (cr (op := .crRxrecycle) (by simp)) (gated_of_tr (op := .trRxrecycle) (by simp))
  · exact byFamilyQueued_closed hs closed (cr (op := .crCantx q) (by simp)) q
  · exact byFamilyQueued_closed hs closed (cr (op := .crTx q) (by simp)) q
  · exact byFamilyQueued_closed hs closed (cr (op := .crTxrecycle q) (by simp)) q
  · exact byFamily_closed hs closed (cr (op := .crTxalloc) (by simp)) (gated_of_tr (op := .trTxalloc) (by simp))

/-- Settles O50: the preamble's answer at each gate is the operation's. -/
theorem ringOperationGates : Obligations.RingOperationGates := fun _ s hs =>
  ⟨fun _ hop => ⟨fun family => gated_of_cr hop s _ (crCheck_otherFamily hs family),
      fun family closed => gated_of_cr hop s _ (crCheck_closed hs family closed)⟩,
    fun _ hop => ⟨fun family => gated_of_tr hop s _ (trCheck_otherFamily hs family),
      fun family closed => gated_of_tr hop s _ (trCheck_closed hs family closed)⟩,
    fun _ hop closed => exec_dev_closed hs closed hop,
    fun _ hop family open' outside => gated_of_crQueued hop s _ (crQueueCheck_outside hs family open' outside)⟩

end Sys2Proof.Machine
end

section
/-! A step in the invariants never stops the model (R289, R205, R40, R320) but where the host touches a byte it does not hold: the block
finds a buffer at every done receive slot, and the completion it consumes is the one the transport reports. -/

namespace Sys2Proof.Machine

/-- The outcome is a next state. -/
def Answers (r : Result) : Prop := ∃ t, r = .next t

theorem answers_next (t : State) : Answers (.next t) := ⟨t, rfl⟩

/-- The moves of a running block keep its invariant. -/
theorem Moves.inv {s t : State} (h : Moves True s t) (hs : s.halted = false) (inv : s.Inv) : t.Inv :=
  (h.live trivial (inv.live hs)).inv (h.fullRx (inv.fullRx hs)) (h.codesOk inv.codes)

theorem Moves.running {g : Prop} {s t : State} (h : Moves g s t) (hs : s.halted = false) : t.halted = false := h.halted.trans hs

/-! ## A batch of `RX` finds its buffers (R205, R40) -/

theorem popAndEmit_answers {q : Nat} {s : State} (waiting : (s.queue q).rxq ≠ []) : Answers (popAndEmit q s) := by
  unfold popAndEmit
  split
  next empty => exact absurd empty waiting
  · exact answers_next _

/-- Draining a slot puts its buffer at the end of the software queue. -/
theorem drainSlot_rxq {q : Nat} {s : State} (hq : q < s.queues.length) (slot i j : Nat) (w : Word) :
    ((drainSlot q slot i j w s).queue q).rxq = (s.queue q).rxq ++ [i] := by
  rw [(drainSlot_envChange q slot i j w s).queue, State.drainBlock, State.queue_setQueue_self (by simpa using hq)]
  rfl

/-- A batch from a state of the invariant (R205): it comes to no empty slot, and it has put on the software queue what it counts. -/
theorem rxBatch_counts {q fuel n : Nat} {s : State} (inv : s.Inv) (ready : ringReady q s)
    (room : (s.queue q).rxq.length + fuel ≤ rxBatchSize) :
    (rxBatch q fuel n s).1 ≠ .slotEmpty ∧ ∃ k, (rxBatch q fuel n s).2.1 = n + k ∧
      ((rxBatch q fuel n s).2.2.queue q).rxq.length = (s.queue q).rxq.length + k := by
  induction fuel generalizing n s with
  | zero => exact ⟨nofun, 0, rfl, rfl⟩
  | succ fuel ih =>
    have turn : EnvChange s s.envTurn := s.envTurn_envChange
    have turned : Moves True s s.envTurn := turn.moves
    have same : (s.envTurn.queue q).rxq = (s.queue q).rxq := by rw [turn.queue]
    have stays : ∃ k, n = n + k ∧ (s.envTurn.queue q).rxq.length = (s.queue q).rxq.length + k := ⟨0, rfl, by rw [same]; rfl⟩
    have ⟨running, family, open', inRange⟩ := ready
    have ringOpen : s.ringOpen q := ⟨family, open', inRange⟩
    obtain ⟨hq, -, -, inRing, -⟩ := inv.record inRange
    obtain ⟨i, held⟩ := inv.rx_buffer ready inRing
    have held' : slotAt (s.envTurn.queue q).rxBuf (s.queue q).rxIndex.toNat = some i := by rw [turn.queue]; exact held
    unfold rxBatch
    simp only [State.memRead_fst, State.memRead_snd, held']
    split
    · exact ⟨nofun, stays⟩
    split
    · exact ⟨nofun, stays⟩
    split
    · exact ⟨nofun, stays⟩
    next j lease =>
    have drained : Moves True s _ := turned.trans (drainSlot_moves (turned.ringOpen ringOpen) held' lease (by rw [same]; omega)
      (s.envTurn.mem.load (rxd s.cfg q (s.queue q).rxIndex.toNat + 8#64) 8))
    have length := congrArg List.length (drainSlot_rxq (by rw [turn.queues]; exact hq) (s.queue q).rxIndex.toNat i j
      (s.envTurn.mem.load (rxd s.cfg q (s.queue q).rxIndex.toNat + 8#64) 8) (s := s.envTurn))
    rw [same, List.length_append, List.length_singleton] at length
    obtain ⟨noStop, k, count, pulled⟩ := ih (n := n + 1) (drained.inv running inv)
      ⟨drained.running running, drained.ringOpen ringOpen⟩ (by rw [length]; omega)
    exact ⟨noStop, k + 1, by rw [count]; omega, by rw [pulled, length]; omega⟩

theorem crRxBody_answers {q : Nat} {s : State} (inv : s.Inv) (ready : ringReady q s) : Answers (crRxBody q s) := by
  have turn : EnvChange s s.envTurn := s.envTurn_envChange
  have turned : Moves True s s.envTurn := turn.moves
  have ⟨running, ringOpen⟩ := ready
  unfold crRxBody
  dsimp only
  split
  next waiting => exact popAndEmit_answers waiting
  next empty =>
  split
  · exact answers_next _
  have same : (s.envTurn.queue q).rxq = [] := by rw [turn.queue]; exact not_not.mp empty
  obtain ⟨noStop, k, count, pulled⟩ := rxBatch_counts (q := q) (fuel := rxBatchSize) (n := 0) (turned.inv running inv)
    ⟨turned.running running, turned.ringOpen ringOpen⟩ (by rw [same]; exact le_of_eq (Nat.zero_add _))
  split
  next stop => exact absurd stop noStop
  · exact answers_next _
  split
  · exact answers_next _
  next drained =>
    have some : (rxBatch q rxBatchSize 0 s.envTurn).2.1 ≠ 0 := drained
    have waiting : 0 < ((rxBatch q rxBatchSize 0 s.envTurn).2.2.queue q).rxq.length := by omega
    exact popAndEmit_answers (List.ne_nil_of_length_pos waiting)

theorem execCrRx_answers {q : Nat} {s : State} (inv : s.Inv) : Answers (execCrRx q s) := by
  unfold execCrRx
  split
  · exact answers_next _
  next passed =>
    obtain ⟨⟨running, family, open'⟩, inRange⟩ := (crQueueCheck_none q s).mp passed
    exact crRxBody_answers inv ⟨running, family, open', inRange⟩

/-! ## A turn leaves the front of the completions where it is (R295) -/

/-- The completions that `t` reports stand in front of those that `t'` does. -/
def Transport.Extends (t t' : Transport) : Prop := t.rxUsed <+: t'.rxUsed ∧ t.txUsed <+: t'.txUsed

theorem Transport.Extends.refl (t : Transport) : t.Extends t := ⟨List.prefix_rfl, List.prefix_rfl⟩

theorem Transport.Extends.trans {t u v : Transport} (h : t.Extends u) (k : u.Extends v) : t.Extends v :=
  ⟨h.1.trans k.1, h.2.trans k.2⟩

theorem envStep_extends (s : State) (e : EnvStep) : s.transport.Extends (envStep s e).transport := by
  cases e with
  | nicRxBegin q f => simp only [envStep]; rw [nicRxBegin_frame]; exact .refl _
  | nicTxBegin q slot sta => simp only [envStep]; rw [nicTxBegin_frame]; exact .refl _
  | nicWrite k => simp only [envStep]; rw [nicWrite_frame]; exact .refl _
  | nicRxwb q f => simp only [envStep]; rw [nicRxwb_frame]; exact .refl _
  | nicTxdone q slot sta => simp only [envStep]; rw [nicTxdone_frame]; exact .refl _
  | vqDevrx k len bytes =>
    simp only [envStep, vqDevrx]
    split
    · exact .refl _
    · split
      · exact ⟨List.prefix_append _ _, List.prefix_rfl⟩
      · exact .refl _
  | vqDevtx k =>
    simp only [envStep, vqDevtx]
    split
    · exact .refl _
    · exact ⟨List.prefix_rfl, List.prefix_append _ _⟩

theorem State.envTurn_extends (s : State) : s.transport.Extends s.envTurn.transport := by
  have steps : ∀ (es : List EnvStep) (t : State), t.transport.Extends (es.foldl envStep t).transport := by
    intro es
    induction es with
    | nil => exact fun t => .refl _
    | cons e es ih => exact fun t => (envStep_extends t e).trans (ih _)
  unfold State.envTurn
  split
  · exact .refl _
  next es rest _ => exact steps es { s with env := { s.env with sched := rest } }

/-! ## The front of the completions can be consumed (R289, R292) -/

/-- What a poll reports is the token of the first completion. -/
theorem exists_front {α : Type} {tok : α → Nat} {l : List α} {a : Nat} (h : l.head?.map tok = some a) :
    ∃ u rest, l = u :: rest ∧ tok u = a := by
  obtain ⟨u, head, token⟩ := Option.map_eq_some_iff.mp h
  obtain ⟨rest, rfl⟩ := List.head?_eq_some_iff.mp head
  exact ⟨u, rest, rfl, token⟩

theorem State.receiveComplete_isSome {s : State} {u : RxDone} {rest : List RxDone} (front : s.transport.rxUsed = u :: rest) :
    ∃ c, s.receiveComplete u.tok u.entry = some c := by
  obtain ⟨later, used⟩ := s.envTurn_extends.1
  rw [front, List.cons_append] at used
  simp only [State.receiveComplete, ← used, and_self, if_true]
  exact ⟨_, rfl⟩

theorem State.transmitComplete_isSome {s : State} {u : TxFlight} {rest : List TxFlight} (front : s.transport.txUsed = u :: rest) :
    ∃ t, s.transmitComplete u.tok u.entry = some t := by
  obtain ⟨later, used⟩ := s.envTurn_extends.2
  rw [front, List.cons_append] at used
  simp only [State.transmitComplete, ← used, and_self, if_true]
  exact ⟨_, rfl⟩

section
variable {s : State} (tokens : s.tokensOk) (hs : s.halted = false) {tok i : Nat}
include tokens hs

/-- The reported receive completion is for the entry that stands at its token: the precondition of `T.receive_complete`. -/
theorem State.tokensOk.receive_reported (polled : s.transport.rxUsed.head?.map (·.tok) = some tok)
    (held : slotAt s.token.rxBuffers tok = some i) : ∃ c, (s.setRxBuffer tok none).receiveComplete tok i = some c := by
  obtain ⟨u, rest, front, rfl⟩ := exists_front polled
  obtain ⟨⟨same, -⟩, -⟩ := s.tokensOk_iff.mp tokens hs
  have stands : slotAt s.token.rxBuffers u.tok = some u.entry :=
    (same u.tok u.entry).mpr (List.mem_append_right _ (by rw [front]; exact List.mem_cons_self))
  obtain rfl : u.entry = i := Option.some.inj (stands.symm.trans held)
  exact State.receiveComplete_isSome (s := s.setRxBuffer u.tok none) front

/-- The same of the reported transmit completion and `T.transmit_complete`. -/
theorem State.tokensOk.transmit_reported (polled : s.transport.txUsed.head?.map (·.tok) = some tok)
    (held : slotAt s.token.txBuffers tok = some i) : ∃ t, (s.setTxBuffer tok none).transmitComplete tok i = some t := by
  obtain ⟨u, rest, front, rfl⟩ := exists_front polled
  obtain ⟨-, ⟨same, -⟩⟩ := s.tokensOk_iff.mp tokens hs
  have stands : slotAt s.token.txBuffers u.tok = some u.entry :=
    (same u.tok u.entry).mpr (List.mem_append_right _ (by rw [front]; exact List.mem_cons_self))
  obtain rfl : u.entry = i := Option.some.inj (stands.symm.trans held)
  exact State.transmitComplete_isSome (s := s.setTxBuffer u.tok none) front

end

/-! ## The operations that consume completions (R233, R237) -/

theorem trRxBody_answers {s : State} (tokens : s.tokensOk) (hs : s.halted = false) : Answers (trRxBody s) := by
  have turn : EnvChange s s.envTurn := s.envTurn_envChange
  unfold trRxBody
  dsimp only
  split
  · exact answers_next _
  next tok polled =>
  split
  · exact answers_next _
  split
  · exact answers_next _
  next i held =>
  obtain ⟨c, completed⟩ := (turn.alike.tokensOk tokens).receive_reported (turn.halted.trans hs) polled held
  have completed' : (s.pollReceive.2.setRxBuffer tok none).receiveComplete tok i = some c := completed
  rw [completed']
  exact answers_next _

/-- The drain loop consumes what the transport reports, completion after completion. -/
theorem txDrain_answers {s : State} (inv : s.Inv) (tokens : s.tokensOk) (hs : s.halted = false) (work : s.tokenOpen) (fuel : Nat) :
    Answers (txDrain fuel s) := by
  induction fuel generalizing s with
  | zero => exact answers_next _
  | succ fuel ih =>
    have turn : EnvChange s s.envTurn := s.envTurn_envChange
    unfold txDrain
    dsimp only
    split
    · exact answers_next _
    next tok polled =>
    split
    · exact answers_next _
    split
    · exact answers_next _
    next i held =>
    obtain ⟨t, completed⟩ := (turn.alike.tokensOk tokens).transmit_reported (turn.halted.trans hs) polled held
    have completed' : (s.pollTransmit.2.setTxBuffer tok none).transmitComplete tok i = some t := completed
    rw [completed']
    dsimp only
    obtain ⟨v, u, rest, around, used, sameToken, sameEntry, after⟩ := State.transmitComplete_setTxBuffer completed
    have both : EnvChange s v := turn.trans around
    have held' : slotAt v.token.txBuffers tok = some i := by rw [around.token]; exact held
    have move : TokenMove True v _ := .completeTx (f := fun e => { e with pktLen := 0#64, tag := .swDriver }) held' used sameToken
      sameEntry fun _ => ⟨rfl, rfl⟩
    have one : Moves True s _ := both.moves.trans (move.moves (both.tokenOpen work))
    rw [after]
    exact ih (one.inv hs inv) (one.tokensOk trivial (inv.live hs) tokens) (one.running hs) (one.tokenOpen work)

theorem execTrRx_answers {s : State} (tokens : s.tokensOk) : Answers (execTrRx s) := by
  unfold execTrRx
  split
  · exact answers_next _
  next passed => exact trRxBody_answers tokens ((trCheck_none s).mp passed).1

theorem execTrTxrecycle_answers {s : State} (inv : s.Inv) (tokens : s.tokensOk) : Answers (execTrTxrecycle s) := by
  unfold execTrTxrecycle
  split
  · exact answers_next _
  next passed => exact txDrain_answers inv tokens ((trCheck_none s).mp passed).1 (State.tokenOpen_of_check passed) _

/-! ## Every operation, command and step -/

theorem byFamily_answers {s : State} {classic token : State → Result} (hc : Answers (classic s)) (ht : Answers (token s)) :
    Answers (byFamily classic token s) := by
  unfold byFamily
  split
  · exact answers_next _
  split
  · exact hc
  · exact ht

theorem byFamilyQueued_answers (q : Nat) {s : State} {classic token : State → Result} (hc : Answers (classic s))
    (ht : Answers (token s)) : Answers (byFamilyQueued q classic token s) := by
  refine byFamily_answers hc ?_
  split
  · exact answers_next _
  · exact ht

/-- Every operation in a state of the invariants answers; those that take up no reported packet do so in every state. -/
theorem exec_answers {i : Instr} {s : State} (inv : s.Inv) (tokens : s.tokensOk) : Answers (exec i s) := by
  cases i with
  | crRx q => exact execCrRx_answers inv
  | trRx => exact execTrRx_answers tokens
  | trTxrecycle => exact execTrTxrecycle_answers inv tokens
  | devRx q => exact byFamilyQueued_answers q (execCrRx_answers inv) (execTrRx_answers tokens)
  | devTxrecycle q => exact byFamilyQueued_answers q (answers_next _) (execTrTxrecycle_answers inv tokens)
  | devCanrx q | devCantx q | devTx q => exact byFamilyQueued_answers q (answers_next _) (answers_next _)
  | devInit | devRxrecycle | devTxalloc => exact byFamily_answers (answers_next _) (answers_next _)
  | _ => exact answers_next _

/-- A command, whatever the phase and the host's list are. -/
theorem runCommand_answers {s u : State} (inv : s.Inv) (tokens : s.tokensOk) (same : u = { s with phase := u.phase, host := u.host }) :
    Answers (runCommand u) := by
  have like : Alike s { u with phase := .idle } := by rw [same]; exact .of_registers rfl id
  have codes : s.sameCodes { u with phase := .idle } := by rw [same]; exact ⟨rfl, rfl, rfl⟩
  unfold runCommand
  split
  · exact exec_answers (inv.alike like (codes.codesOk inv.codes)) (like.tokensOk tokens)
  · exact answers_next _

/-- The host's own fault is the only one of an action (log 13). -/
theorem hostAct_answers (s : State) (act : HostAction) : Answers (hostAct s act) ∨ hostAct s act = .fault .hostRights := by
  cases act with
  | writeA0 | writeA1 | writeA2 | writeCmd | extReset | pause => exact Or.inl (answers_next _)
  | storeByte p b =>
    unfold hostAct
    dsimp only
    split
    · exact Or.inl (answers_next _)
    · exact Or.inr rfl
  | loadByte p =>
    unfold hostAct
    dsimp only
    split
    · exact Or.inl (answers_next _)
    · exact Or.inr rfl

theorem idleStep_answers (s : State) : Answers (idleStep s) ∨ (idleStep s = .fault .hostRights ∧ s.host ≠ []) := by
  unfold idleStep
  split
  · exact Or.inl (answers_next _)
  next act rest host => exact (hostAct_answers _ act).imp_right fun fault => ⟨fault, by rw [host]; exact nofun⟩

theorem spinStep_answers {s : State} (inv : s.Inv) (tokens : s.tokensOk) : Answers (spinStep s) := by
  unfold spinStep
  split
  · exact answers_next _
  next rest _ => exact runCommand_answers (u := { s with host := rest }) inv tokens rfl
  · exact runCommand_answers (u := s) inv tokens rfl

/-- Settles O59: by what the step takes up; an operation answers by the invariants, and an action of the host by itself. -/
theorem blockNeverStops : Obligations.BlockNeverStops := by
  intro s inv tokens
  have built : ¬ validParams s.cfg = false := by rw [inv.valid]; exact nofun
  rw [step, stepOf, if_neg built]
  cases phase : s.phase with
  | idle => exact (idleStep_answers s).imp_right fun ⟨fault, host⟩ => ⟨fault, rfl, host⟩
  | issued => exact Or.inl (runCommand_answers (u := s) inv tokens rfl)
  | running => exact Or.inl (spinStep_answers inv tokens)

end Sys2Proof.Machine
end

section
/-! The resets (R340 to R343): what the table of R50 gives each piece of state, and how a step takes up the external reset. -/

namespace Sys2Proof.Machine

/-! ## The values of R50 -/

/-- The table of R50 leaves open the command register, the coming choices of the environment and the host, and the memory. -/
theorem atReset_of_powerOn {p : Params} {m : Memory} {t : State}
    (same : t = { State.powerOn p m with cmd := t.cmd, env := t.env, host := t.host }) : t.atReset := by
  have queue : ∀ r ∈ (State.powerOn p m).queues, r.rxIndex = 0#16 ∧ r.txIndex = 0#16 ∧ r.txClean = 0#16 ∧
      r.rxBuf = List.replicate (QS p) none ∧ r.txBuf = List.replicate (QS p) none ∧ r.rxq = [] := by
    intro r hr
    rw [List.eq_of_mem_replicate hr]
    exact ⟨rfl, rfl, rfl, rfl, rfl, rfl⟩
  rw [same]
  exact ⟨rfl, rfl, rfl, rfl, rfl, rfl, rfl, rfl, rfl, rfl, List.length_replicate, queue, rfl, rfl, rfl, rfl, rfl, rfl, rfl, rfl, rfl,
    rfl, rfl, rfl, rfl, rfl, rfl, rfl, rfl⟩

theorem powerOn_atReset (p : Params) (m : Memory) : (State.powerOn p m).atReset := atReset_of_powerOn rfl

theorem resetBlock_atReset (s : State) : s.resetBlock.atReset := atReset_of_powerOn rfl

/-- `SYS.RESET` answers OK with `CMD` kept (R342). -/
theorem sysReset_atReset (s : State) : (State.ok { s.resetBlock with cmd := s.cmd }).atReset :=
  atReset_of_powerOn (p := s.cfg) (m := s.mem) rfl

/-! ## The external reset as a step (R340, logs 1 and 15) -/

/-- Between operations and between the reads of a spinning wait, the environment has its turn and then the host's reset is taken. -/
theorem step_extReset {s : State} {rest : List HostAction} (valid : validParams s.cfg = true) (notIssued : s.phase ≠ .issued)
    (host : s.host = .extReset :: rest) : step s = .next { s.envTurn with host := rest }.resetBlock := by
  have built : ¬ validParams s.cfg = false := by rw [valid]; exact nofun
  rw [step, stepOf, if_neg built]
  cases phase : s.phase with
  | idle => simp only [idleStep, host, hostAct]
  | issued => exact absurd phase notIssued
  | running => simp only [spinStep, host]

/-- Settles O49: each of the three is the power-on state but for what R50 leaves open; a quiet environment's turn before the external
reset leaves the memory. -/
theorem resetGivesResetValues : Obligations.ResetGivesResetValues := by
  refine ⟨fun s => ?sysReset, fun s rest valid notIssued quiet host => ?extReset, fun p m => ?powerOn⟩
  case sysReset => exact ⟨_, rfl, sysReset_atReset s, rfl, rfl, rfl, fun _ => rfl⟩
  case extReset =>
    have reset := step_extReset valid notIssued host
    rw [State.envTurn_quiet quiet] at reset
    exact ⟨_, reset, resetBlock_atReset _, rfl, rfl, rfl, rfl, fun _ => rfl⟩
  case powerOn => exact ⟨powerOn_atReset p m, rfl, rfl⟩

end Sys2Proof.Machine
end
